-- ==== Sys2Proof/Word.lean ====
section
/-! DEFINITION. The word types of the timer block: command and event words are 32 bits
(30_encoding.md R90), counts and extension halves 16 bits, counters 8 bits, codes 4 bits. -/

namespace Sys2Proof

/-- A command word, an extension word or an event word (30_encoding.md R90). -/
abbrev Word := BitVec 32

/-- A 16-bit value: initial count, compare value, value to write (30_encoding.md R93). -/
abbrev Half := BitVec 16

/-- An 8-bit value: a tick counter, a stored byte. -/
abbrev Byte := BitVec 8

/-- A 4-bit field of a first word: ID, A, B, C or H (30_encoding.md R92). -/
abbrev Code := BitVec 4

end Sys2Proof
end

