-- ==== Sys2Proof/Config.lean ====
section
/-! DEFINITION. The options in scope (00_scope.md R3) and the parameters of the block (R8): the
enumerations, the source's duty table and schedule bounds, the parameter record that State carries with
its defaults, and the constants without a body for what the spec leaves OPEN. -/

namespace Sys2Proof

/-- The three timer identifiers (00_scope.md R3). -/
inductive TimerId where
  | t0 | t1 | t2
deriving DecidableEq, Repr

/-- The three external-interrupt lines (00_scope.md R3). -/
inductive Line where
  | l0 | l1 | l2
deriving DecidableEq, Repr

/-- The four timer modes (30_encoding.md R97). Every 2-bit value of WGM is one (10_state.md R37). -/
inductive WaveMode where
  | normal | pcpwm | ctc | fpwm
deriving DecidableEq, Repr

/-- The ten clock settings (30_encoding.md R96). -/
inductive Clock where
  | off | div1 | div8 | div32 | div64 | div128 | div256 | div1024 | extf | extr
deriving DecidableEq, Repr

/-- The edge-detection modes (30_encoding.md R100). -/
inductive EdgeMode where
  | low | any | fall | rise
deriving DecidableEq, Repr

/-- The result codes (60_exceptions.md R300). -/
inductive ResultCode where
  | ok | nok | nullPtr
deriving DecidableEq, Repr

/-- The sequencer's run states (10_state.md R48). -/
inductive RunState where
  | stopped | running
deriving DecidableEq, Repr

/-- The four maneuvers (00_scope.md R3). Each has its own indicator (44_sequencer.md R253). -/
inductive Maneuver where
  | longSide | stop | rotate | shortSide
deriving DecidableEq, Repr

/-- The nine interrupt sources (60_exceptions.md R307). -/
inductive IrqSource where
  | ext (l : Line)
  | ovf (t : TimerId)
  | comp (t : TimerId)
deriving DecidableEq, Repr

/-- The clocks that every choice of timers accepts and that are not off: what the OPEN parameters
clockFast and clockSlow may be with the default timers (00_scope.md R8). -/
inductive FirmwareClock where
  | div1 | div8 | div64 | div256 | div1024 | extf | extr
deriving DecidableEq, Repr, Inhabited

/-- The edge modes line 0 accepts: what the OPEN parameter abortEdge may be with the default line
(00_scope.md R8, 43_exti.md R201). -/
inductive FirmwareEdge where
  | low | any | fall | rise
deriving DecidableEq, Repr, Inhabited

/-- The clock setting a firmware clock stands for. -/
def FirmwareClock.clock : FirmwareClock → Clock
  | .div1 => .div1
  | .div8 => .div8
  | .div64 => .div64
  | .div256 => .div256
  | .div1024 => .div1024
  | .extf => .extf
  | .extr => .extr

/-- The edge mode a firmware edge stands for. -/
def FirmwareEdge.edge : FirmwareEdge → EdgeMode
  | .low => .low
  | .any => .any
  | .fall => .fall
  | .rise => .rise

/-- W(t), a counter width in bits. It is at most 16: every count the block takes or gives is a 16-bit
value (00_scope.md R9, 40_timer_driver.md R131; DEDUCED, log entry 24). -/
abbrev Width := Fin 17

/-- The parameters of 00_scope.md R8 that a run fixes. State carries them as data that no step
writes (log entry 1). -/
structure Params where
  /-- W(T0). -/
  widthT0 : Width
  /-- W(T1). -/
  widthT1 : Width
  /-- W(T2). -/
  widthT2 : Width
  /-- Whether T2 accepts the two external-clock settings. -/
  t2ExternalClock : Bool
  /-- The timer whose overflow gives the PWM tick. -/
  fastTimer : TimerId
  /-- The timer whose overflow gives the delay tick. -/
  slowTimer : TimerId
  /-- The external-interrupt line of the abort path. -/
  abortLine : Line
  /-- The count reloaded into the fast timer. -/
  preloadFast : Half
  /-- The count reloaded into the slow timer. -/
  preloadSlow : Half
  /-- The clock setting the sequencer passes to start for the fast timer. -/
  clockFast : Clock
  /-- The clock setting the sequencer passes to start for the slow timer. -/
  clockSlow : Clock
  /-- The edge mode programmed on the abort line. -/
  abortEdge : EdgeMode
  /-- WRAP_TO: what the delay count is set to at the wrap. -/
  wrapTo : Byte
deriving DecidableEq, Repr

/-- What the main context runs (00_scope.md R8, `mainProgram`). -/
inductive MainProgram where
  /-- A branch-free list of command words (10_state.md R33). -/
  | driverProgram (words : List Word)
  /-- The sequencer firmware (10_state.md R34). -/
  | application
deriving DecidableEq, Repr

namespace Config

/-- WINDOW: fast ticks per maneuver window (00_scope.md R8). -/
def window : Byte := 10

/-- GRACE: the delay-tick grace threshold (00_scope.md R8). -/
def grace : Byte := 2

/-- WRAP_AT: a delay count above it wraps (00_scope.md R8). -/
def wrapAt : Byte := 18

/-- DUTY(k): the ON threshold in fast ticks. The Stop maneuver has none (44_sequencer.md R253). -/
def duty : Maneuver → Option Byte
  | .longSide => some 5
  | .rotate => some 5
  | .shortSide => some 3
  | .stop => none

/-- OPEN: the count reloaded into the fast timer (00_scope.md R8; log entry 2). -/
opaque preloadFast : Half

/-- OPEN: the count reloaded into the slow timer (00_scope.md R8; log entry 2). -/
opaque preloadSlow : Half

/-- OPEN: the fast timer's clock, valid and not off (00_scope.md R8; log entry 2). -/
opaque clockFast : FirmwareClock

/-- OPEN: the slow timer's clock, valid and not off (00_scope.md R8; log entry 2). -/
opaque clockSlow : FirmwareClock

/-- OPEN: the abort line's edge mode (00_scope.md R8; log entry 2). -/
opaque abortEdge : FirmwareEdge

/-- The free choice of which enabled agent steps next, one number for each choice taken
(10_state.md R30 and R55, 60_exceptions.md R315 and R318; log entry 4). -/
opaque schedule : Nat → Nat

/-- The parameters after reset: the defaults of 00_scope.md R8 (log entry 3), and the OPEN constants
(log entry 2). -/
def params : Params where
  widthT0 := 8
  widthT1 := 16
  widthT2 := 8
  t2ExternalClock := false
  fastTimer := .t0
  slowTimer := .t1
  abortLine := .l0
  preloadFast := preloadFast
  preloadSlow := preloadSlow
  clockFast := clockFast.clock
  clockSlow := clockSlow.clock
  abortEdge := abortEdge.edge
  wrapTo := 2

end Config
end Sys2Proof
end

