-- ==== Sys2Proof/Syntax.lean ====
section
/-! DEFINITION. The instruction type: one constructor for each row of spec/opcode_table.json, with
the fields the row uses (30_encoding.md R102), and the opcodes themselves. -/

namespace Sys2Proof

/-- Commands and events, one constructor per row of the opcode table (30_encoding.md R102).
Operands are the raw fields of R92 and R93: every value of a command's operand is a legal encoding
and an out-of-range one gives NOK (R95), so no value may be lost before the operation sees it. -/
inductive Instr where
  /-- TMR.INIT: P, ID, A (mode), B (compare-output mode), C (PWM output mode), H (callback), CV, IC. -/
  | tmrInit (p : Bool) (id a b c h : Code) (cv ic : Half)
  /-- TMR.SETCB: ID, H (callback handle). -/
  | tmrSetcb (id h : Code)
  /-- TMR.START: ID, A (clock code). -/
  | tmrStart (id a : Code)
  /-- TMR.STOP: ID. -/
  | tmrStop (id : Code)
  /-- TMR.SETVAL: ID, V. -/
  | tmrSetval (id : Code) (v : Half)
  /-- TMR.RESET: ID. -/
  | tmrReset (id : Code)
  /-- TMR.RDCNT: ID. -/
  | tmrRdcnt (id : Code)
  /-- TMGR.INIT: operands as TMR.INIT. -/
  | tmgrInit (p : Bool) (id a b c h : Code) (cv ic : Half)
  /-- TMGR.START: ID, A (clock code). -/
  | tmgrStart (id a : Code)
  /-- TMGR.STOP: ID. -/
  | tmgrStop (id : Code)
  /-- TMGR.SETVAL: ID, V. -/
  | tmgrSetval (id : Code) (v : Half)
  /-- EXTI.INIT: P, ID (line), A (edge code), H (callback handle). -/
  | extiInit (p : Bool) (id a h : Code)
  /-- EXTI.ENABLE: ID (line). -/
  | extiEnable (id : Code)
  /-- EXTI.DISABLE: ID (line). -/
  | extiDisable (id : Code)
  /-- EXTI.SETCB: ID (line), H. -/
  | extiSetcb (id h : Code)
  /-- EV.TICK: ID (timer, 0 to 2). -/
  | evTick (id : Code)
  /-- EV.EXTRIG: ID (line, 0 to 2). -/
  | evExtrig (id : Code)
  /-- EV.IRQ: A (interrupt source, 0 to 8). -/
  | evIrq (a : Code)
  /-- EV.BUTTON: A[0] (button level). -/
  | evButton (v : Bool)
  /-- EV.MAIN. -/
  | evMain
deriving DecidableEq, Repr

/-- The rows of the opcode table by themselves: what U and OP of a first word select. -/
inductive Op where
  | tmrInit | tmrSetcb | tmrStart | tmrStop | tmrSetval | tmrReset | tmrRdcnt
  | tmgrInit | tmgrStart | tmgrStop | tmgrSetval
  | extiInit | extiEnable | extiDisable | extiSetcb
  | evTick | evExtrig | evIrq | evButton | evMain
deriving DecidableEq, Repr

/-- The three formats (30_encoding.md R90). -/
inductive Format where
  /-- One command word. -/
  | cmd
  /-- A command word and an extension word. -/
  | cmdx
  /-- One event word. -/
  | ev
deriving DecidableEq, Repr

/-- The reasons a word is Invalid (30_encoding.md R106). -/
inductive DecodeError where
  | reservedUnit | reservedOp | reservedField | eventRange | truncatedCommand
deriving DecidableEq, Repr

end Sys2Proof
end

