-- ==== Sys2Proof/WellFormed.lean ====
section
/-! DEFINITION. Which instructions an encoding stands for: the range constraints of the event rows
(30_encoding.md R95, R102, R105.4). Every operand value of a command is legal (R95). -/

namespace Sys2Proof

/-- The event rows' range constraints: EV.TICK and EV.EXTRIG have ID at most 2, EV.IRQ has A at
most 8 (30_encoding.md R105.4). -/
def Instr.wellFormed : Instr → Bool
  | .evTick id => id.toNat ≤ 2
  | .evExtrig id => id.toNat ≤ 2
  | .evIrq a => a.toNat ≤ 8
  | .tmrInit .. => true
  | .tmrSetcb .. => true
  | .tmrStart .. => true
  | .tmrStop .. => true
  | .tmrSetval .. => true
  | .tmrReset .. => true
  | .tmrRdcnt .. => true
  | .tmgrInit .. => true
  | .tmgrStart .. => true
  | .tmgrStop .. => true
  | .tmgrSetval .. => true
  | .extiInit .. => true
  | .extiEnable .. => true
  | .extiDisable .. => true
  | .extiSetcb .. => true
  | .evButton .. => true
  | .evMain => true

end Sys2Proof
end

