-- ==== Sys2Proof/Decode.lean ====
section
/-! DEFINITION. Decoding and encoding of command and event words (30_encoding.md R90 to R110): the
fields of a word, the opcode table with its matching masks, the total decoder with its named
reasons, the encoder, and the little-endian byte view of stored words (20_memory.md R72). -/

namespace Sys2Proof

/-! ### Fields (30_encoding.md R92, R93) -/

/-- Bits 31:28, the unit. -/
def fieldU (w : Word) : Code := w.extractLsb' 28 4
/-- Bits 27:24, the operation within the unit. -/
def fieldOP (w : Word) : Code := w.extractLsb' 24 4
/-- Bits 23:20, the timer identifier or line. -/
def fieldID (w : Word) : Code := w.extractLsb' 20 4
/-- Bits 19:16, mode, clock, edge, source or level. -/
def fieldA (w : Word) : Code := w.extractLsb' 16 4
/-- Bits 15:12, the compare-output mode. -/
def fieldB (w : Word) : Code := w.extractLsb' 12 4
/-- Bits 11:8, the PWM output mode. -/
def fieldC (w : Word) : Code := w.extractLsb' 8 4
/-- Bits 7:4, the callback handle. -/
def fieldH (w : Word) : Code := w.extractLsb' 4 4
/-- Bit 3, configuration present. -/
def fieldP (w : Word) : Bool := w.getLsbD 3
/-- X[31:16], the compare-match value of INIT. -/
def fieldCV (x : Word) : Half := x.extractLsb' 16 16
/-- X[15:0], the initial count of INIT, the value of SETVAL. -/
def fieldIC (x : Word) : Half := x.extractLsb' 0 16

/-! ### The opcode table (30_encoding.md R102) -/

/-- The row that U and OP select, or why there is none (30_encoding.md R105.1, R105.2). -/
def lookupOp (u op : Code) : Except DecodeError Op :=
  match u.toNat, op.toNat with
  | 1, 0 => .ok .tmrInit
  | 1, 1 => .ok .tmrSetcb
  | 1, 2 => .ok .tmrStart
  | 1, 3 => .ok .tmrStop
  | 1, 4 => .ok .tmrSetval
  | 1, 5 => .ok .tmrReset
  | 1, 6 => .ok .tmrRdcnt
  | 1, _ => .error .reservedOp
  | 2, 0 => .ok .tmgrInit
  | 2, 2 => .ok .tmgrStart
  | 2, 3 => .ok .tmgrStop
  | 2, 4 => .ok .tmgrSetval
  | 2, _ => .error .reservedOp
  | 3, 0 => .ok .extiInit
  | 3, 1 => .ok .extiEnable
  | 3, 2 => .ok .extiDisable
  | 3, 3 => .ok .extiSetcb
  | 3, _ => .error .reservedOp
  | 8, 0 => .ok .evTick
  | 8, 1 => .ok .evExtrig
  | 8, 2 => .ok .evIrq
  | 8, 3 => .ok .evButton
  | 8, 4 => .ok .evMain
  | 8, _ => .error .reservedOp
  | _, _ => .error .reservedUnit

/-- The `match` column of 30_encoding.md R102. -/
def Op.pattern : Op → Word
  | .tmrInit => 0x10000000#32
  | .tmrSetcb => 0x11000000#32
  | .tmrStart => 0x12000000#32
  | .tmrStop => 0x13000000#32
  | .tmrSetval => 0x14000000#32
  | .tmrReset => 0x15000000#32
  | .tmrRdcnt => 0x16000000#32
  | .tmgrInit => 0x20000000#32
  | .tmgrStart => 0x22000000#32
  | .tmgrStop => 0x23000000#32
  | .tmgrSetval => 0x24000000#32
  | .extiInit => 0x30000000#32
  | .extiEnable => 0x31000000#32
  | .extiDisable => 0x32000000#32
  | .extiSetcb => 0x33000000#32
  | .evTick => 0x80000000#32
  | .evExtrig => 0x81000000#32
  | .evIrq => 0x82000000#32
  | .evButton => 0x83000000#32
  | .evMain => 0x84000000#32

/-- The `mask` column of 30_encoding.md R102: the bits of a row that are not free. -/
def Op.mask : Op → Word
  | .tmrInit => 0xFF000007#32
  | .tmrSetcb => 0xFF0FFF0F#32
  | .tmrStart => 0xFF00FFFF#32
  | .tmrStop => 0xFF0FFFFF#32
  | .tmrSetval => 0xFF0FFFFF#32
  | .tmrReset => 0xFF0FFFFF#32
  | .tmrRdcnt => 0xFF0FFFFF#32
  | .tmgrInit => 0xFF000007#32
  | .tmgrStart => 0xFF00FFFF#32
  | .tmgrStop => 0xFF0FFFFF#32
  | .tmgrSetval => 0xFF0FFFFF#32
  | .extiInit => 0xFF00FF07#32
  | .extiEnable => 0xFF0FFFFF#32
  | .extiDisable => 0xFF0FFFFF#32
  | .extiSetcb => 0xFF0FFF0F#32
  | .evTick => 0xFF0FFFFF#32
  | .evExtrig => 0xFF0FFFFF#32
  | .evIrq => 0xFFF0FFFF#32
  | .evButton => 0xFFFEFFFF#32
  | .evMain => 0xFFFFFFFF#32

/-- The format of a row (30_encoding.md R91). -/
def Op.format : Op → Format
  | .tmrInit => .cmdx
  | .tmrSetcb => .cmd
  | .tmrStart => .cmd
  | .tmrStop => .cmd
  | .tmrSetval => .cmdx
  | .tmrReset => .cmd
  | .tmrRdcnt => .cmd
  | .tmgrInit => .cmdx
  | .tmgrStart => .cmd
  | .tmgrStop => .cmd
  | .tmgrSetval => .cmdx
  | .extiInit => .cmd
  | .extiEnable => .cmd
  | .extiDisable => .cmd
  | .extiSetcb => .cmd
  | .evTick => .ev
  | .evExtrig => .ev
  | .evIrq => .ev
  | .evButton => .ev
  | .evMain => .ev

/-- The number of words of a format (30_encoding.md R91). -/
def Format.length : Format → Nat
  | .cmd => 1
  | .cmdx => 2
  | .ev => 1

/-- The row an instruction belongs to. -/
def Instr.op : Instr → Op
  | .tmrInit .. => .tmrInit
  | .tmrSetcb .. => .tmrSetcb
  | .tmrStart .. => .tmrStart
  | .tmrStop .. => .tmrStop
  | .tmrSetval .. => .tmrSetval
  | .tmrReset .. => .tmrReset
  | .tmrRdcnt .. => .tmrRdcnt
  | .tmgrInit .. => .tmgrInit
  | .tmgrStart .. => .tmgrStart
  | .tmgrStop .. => .tmgrStop
  | .tmgrSetval .. => .tmgrSetval
  | .extiInit .. => .extiInit
  | .extiEnable .. => .extiEnable
  | .extiDisable .. => .extiDisable
  | .extiSetcb .. => .extiSetcb
  | .evTick .. => .evTick
  | .evExtrig .. => .evExtrig
  | .evIrq .. => .evIrq
  | .evButton .. => .evButton
  | .evMain => .evMain

/-- The length of an instruction in words (30_encoding.md R91). -/
def Instr.length (i : Instr) : Nat := i.op.format.length

/-- An instruction is an event when its format is EV (30_encoding.md R90). -/
def Instr.isEvent (i : Instr) : Bool := i.op.format == .ev

/-- The length in words of the instruction that starts with a word, told from U and OP alone
(30_encoding.md R91); a word of no row counts as one. -/
def wordLength (w : Word) : Nat :=
  match lookupOp (fieldU w) (fieldOP w) with
  | .ok o => o.format.length
  | .error _ => 1

/-! ### Decoding (30_encoding.md R105, R106) -/

/-- An event, if its operand is in range (30_encoding.md R105.4). -/
def inRange (i : Instr) : Except DecodeError Instr :=
  if i.wellFormed then .ok i else .error .eventRange

/-- The extension word's halves, or TruncatedCommand when there is no second word. -/
def extension (w1 : Option Word) : Except DecodeError (Half × Half) :=
  match w1 with
  | none => .error .truncatedCommand
  | some x => .ok (fieldCV x, fieldIC x)

/-- The instruction of an INIT row: CV and IC come from the extension word (30_encoding.md R93). -/
def withConfig (mk : Half → Half → Instr) (w1 : Option Word) : Except DecodeError Instr :=
  match extension w1 with
  | .error e => .error e
  | .ok (cv, ic) => .ok (mk cv ic)

/-- The instruction of a SETVAL row: X[31:16] must be 0 (30_encoding.md R105.5). -/
def withValue (mk : Half → Instr) (w1 : Option Word) : Except DecodeError Instr :=
  match extension w1 with
  | .error e => .error e
  | .ok (cv, ic) => if cv = 0 then .ok (mk ic) else .error .reservedField

/-- The operands of a row whose fixed bits are right (30_encoding.md R102, column fields). -/
def decodeRow (o : Op) (w0 : Word) (w1 : Option Word) : Except DecodeError Instr :=
  match o with
  | .tmrInit =>
    withConfig (.tmrInit (fieldP w0) (fieldID w0) (fieldA w0) (fieldB w0) (fieldC w0) (fieldH w0)) w1
  | .tmrSetcb => .ok (.tmrSetcb (fieldID w0) (fieldH w0))
  | .tmrStart => .ok (.tmrStart (fieldID w0) (fieldA w0))
  | .tmrStop => .ok (.tmrStop (fieldID w0))
  | .tmrSetval => withValue (.tmrSetval (fieldID w0)) w1
  | .tmrReset => .ok (.tmrReset (fieldID w0))
  | .tmrRdcnt => .ok (.tmrRdcnt (fieldID w0))
  | .tmgrInit =>
    withConfig (.tmgrInit (fieldP w0) (fieldID w0) (fieldA w0) (fieldB w0) (fieldC w0) (fieldH w0)) w1
  | .tmgrStart => .ok (.tmgrStart (fieldID w0) (fieldA w0))
  | .tmgrStop => .ok (.tmgrStop (fieldID w0))
  | .tmgrSetval => withValue (.tmgrSetval (fieldID w0)) w1
  | .extiInit => .ok (.extiInit (fieldP w0) (fieldID w0) (fieldA w0) (fieldH w0))
  | .extiEnable => .ok (.extiEnable (fieldID w0))
  | .extiDisable => .ok (.extiDisable (fieldID w0))
  | .extiSetcb => .ok (.extiSetcb (fieldID w0) (fieldH w0))
  | .evTick => inRange (.evTick (fieldID w0))
  | .evExtrig => inRange (.evExtrig (fieldID w0))
  | .evIrq => inRange (.evIrq (fieldA w0))
  | .evButton => .ok (.evButton (w0.getLsbD 16))
  | .evMain => .ok .evMain

/-- Decoding, total, with a named reason for every Invalid word (30_encoding.md R105, R106). The
second word is looked at exactly when U and OP name a CMDX row. DESIGN CHOICE, log entry 12: where two
reasons hold of a word, R105 and R106 give no order, and a reserved field of the first word (R105.3) is
reported before a missing second word and before an event's operand out of range (R105.4). -/
def decode (w0 : Word) (w1 : Option Word) : Except DecodeError Instr :=
  match lookupOp (fieldU w0) (fieldOP w0) with
  | .error e => .error e
  | .ok o => if w0 &&& o.mask = o.pattern then decodeRow o w0 w1 else .error .reservedField

/-! ### Encoding (30_encoding.md R110) -/

/-- The first word from its fields, most significant first; Z is 0 (30_encoding.md R92, R110). -/
def packWord (u op id a b c h : Code) (p : Bool) : Word :=
  u ++ op ++ id ++ a ++ b ++ c ++ h ++ BitVec.ofBool p ++ 0#3

/-- The extension word from its halves (30_encoding.md R110). -/
def packExt (cv ic : Half) : Word := cv ++ ic

/-- The words of an instruction (30_encoding.md R102, R110). -/
def encode : Instr → List Word
  | .tmrInit p id a b c h cv ic => [packWord 1 0 id a b c h p, packExt cv ic]
  | .tmrSetcb id h => [packWord 1 1 id 0 0 0 h false]
  | .tmrStart id a => [packWord 1 2 id a 0 0 0 false]
  | .tmrStop id => [packWord 1 3 id 0 0 0 0 false]
  | .tmrSetval id v => [packWord 1 4 id 0 0 0 0 false, packExt 0 v]
  | .tmrReset id => [packWord 1 5 id 0 0 0 0 false]
  | .tmrRdcnt id => [packWord 1 6 id 0 0 0 0 false]
  | .tmgrInit p id a b c h cv ic => [packWord 2 0 id a b c h p, packExt cv ic]
  | .tmgrStart id a => [packWord 2 2 id a 0 0 0 false]
  | .tmgrStop id => [packWord 2 3 id 0 0 0 0 false]
  | .tmgrSetval id v => [packWord 2 4 id 0 0 0 0 false, packExt 0 v]
  | .extiInit p id a h => [packWord 3 0 id a 0 0 h p]
  | .extiEnable id => [packWord 3 1 id 0 0 0 0 false]
  | .extiDisable id => [packWord 3 2 id 0 0 0 0 false]
  | .extiSetcb id h => [packWord 3 3 id 0 0 0 h false]
  | .evTick id => [packWord 8 0 id 0 0 0 0 false]
  | .evExtrig id => [packWord 8 1 id 0 0 0 0 false]
  | .evIrq a => [packWord 8 2 0 a 0 0 0 false]
  | .evButton v => [packWord 8 3 0 (0#3 ++ BitVec.ofBool v) 0 0 0 false]
  | .evMain => [packWord 8 4 0 0 0 0 0 false]

/-- Decoding the words at the head of a list. -/
def decodeWords : List Word → Except DecodeError Instr
  | [] => .error .truncatedCommand
  | w0 :: rest => decode w0 rest.head?

/-! ### The byte view (20_memory.md R72: little-endian, the low byte is byte 0; log entry 17) -/

/-- The four bytes of a stored word, lowest position first. -/
def wordToBytes (w : Word) : List Byte :=
  [w.extractLsb' 0 8, w.extractLsb' 8 8, w.extractLsb' 16 8, w.extractLsb' 24 8]

/-- The word of four stored bytes, lowest position first. -/
def wordOfBytes (b0 b1 b2 b3 : Byte) : Word := b3 ++ b2 ++ b1 ++ b0

/-- The two bytes of a 16-bit count, low byte first. -/
def halfToBytes (h : Half) : List Byte := [h.extractLsb' 0 8, h.extractLsb' 8 8]

/-- The 16-bit count of two bytes, low byte first. -/
def halfOfBytes (b0 b1 : Byte) : Half := b1 ++ b0

/-- Stored bytes as words; bytes at the end that do not fill a word are no word. -/
def bytesToWords : List Byte → List Word
  | b0 :: b1 :: b2 :: b3 :: rest => wordOfBytes b0 b1 b2 b3 :: bytesToWords rest
  | _ => []

/-- Decoding stored bytes, total on any bytes: fewer than four are a truncated command (log entry
12). -/
def decodeBytes (bs : List Byte) : Except DecodeError Instr := decodeWords (bytesToWords bs)

/-- The first and second word of an instruction numbered as the opcode table numbers it: bit 0 is
the least significant bit of the first word, every bit from nbits up is 0. -/
def tableWords (nbits w : Nat) : Word × Word :=
  (BitVec.ofNat 32 (w % 2 ^ nbits), BitVec.ofNat 32 (w % 2 ^ nbits / 2 ^ 32))

/-- What the decoder reads from an instruction of the opcode table whose bits are w, stored word by
word, each word in the byte order of 20_memory.md R72. -/
def decodeTableWord (nbits w : Nat) : Option Instr :=
  (decodeBytes (wordToBytes (tableWords nbits w).1 ++ wordToBytes (tableWords nbits w).2)).toOption

end Sys2Proof
end

