-- ==== Sys2Proof/Machine/State.lean ====
section
/-! DEFINITION. The state of the timer block (10_state.md R31 to R56) as plain data, the machine's
stops, and the state right after reset. -/

namespace Sys2Proof.Machine

/-- Why a step is not a step of the model. Both are safe: the model stops and claims nothing. -/
inductive Fault where
  /-- Raised by an event whose agent has no enabled step (60_exceptions.md R304.3, 30_encoding.md
  R103): "the trace is not a run". Safe: it is the spec's own outcome and no state follows. -/
  | notEnabled
  /-- Raised by the fetch when the next word of the trace is a command word or an Invalid word, so
  that it names no event (30_encoding.md R90). Safe: such a list of words is not a trace. -/
  | notAnEvent
deriving DecidableEq, Repr

/-- Instructions without a meaning. The spec's own refusals (60_exceptions.md R306) are not here:
they are next states with REFUSED set (log entry 6). -/
inductive Refusal where
  /-- Raised by an arm of the dispatch whose instruction has no meaning yet. Safe: the model stops. -/
  | notModelled (mnemonic : String)
deriving DecidableEq, Repr

/-- The five refusal reasons (60_exceptions.md R306), the values of REFUSED. -/
inductive RefusalReason where
  | invalidEncoding | truncatedCommand | eventInProgram | pwmCountingNotModelled | opaqueCallback
deriving DecidableEq, Repr

/-- The sequencer labels (10_state.md R34). -/
inductive Label where
  | bFast | bSlow | bExti | loop
  | sExtiDis | sTstop | sCarstop | sLed | sPoll | sRun | sZero
  | rExtiEn | rTstart | rSample | rDispatch | rWrap
  | mLed | mStopcmd | mPzero | mFstart | mOn | mOncmd | mOff | mOffcmd | mFstop | mPend
deriving DecidableEq, Repr

/-- The output events (10_state.md R52). -/
inductive OutEvent where
  /-- The car drives forward. -/
  | carForward
  /-- The car pivots in reverse-right. -/
  | carRotate
  /-- The car stops. -/
  | carStop
  /-- Indicator i is set On (true) or Off (false). -/
  | led (i : Maneuver) (v : Bool)
deriving DecidableEq, Repr

/-- The lifecycle of a timer. It is no state element: 10_state.md R43 reads it off the registers. -/
inductive Lifecycle where
  | unconfigured | configuredStopped | running
deriving DecidableEq, Repr

/-- What the car was last commanded to do: the motors' level (10_state.md R52, R56; log entry 10). -/
inductive Motor where
  | forward | rotate | stopped
deriving DecidableEq, Repr

/-- The four indicators' levels (10_state.md R52, R56; log entry 10). -/
structure Leds where
  shortSide : Bool
  longSide : Bool
  rotate : Bool
  stop : Bool
deriving DecidableEq, Repr

/-- The registers of one timer (10_state.md R35 to R42). The count and the compare register have W(t)
bits, and W(t) is a parameter (00_scope.md R8): they are held in 16 bits, with the bits from W(t) up
clear (the invariant countsFit, log entry 24). -/
structure TimerRegs where
  /-- CNT, the count, W(t) bits. -/
  cnt : Half
  /-- OCR, the compare register, W(t) bits. -/
  ocr : Half
  /-- WGM, the waveform-generation field. -/
  wgm : WaveMode
  /-- COM, the compare-output field; no rule reads it. -/
  com : BitVec 2
  /-- CS, the clock select; the timer is running exactly when it is not off. -/
  cs : Clock
  /-- TOIE, the overflow interrupt enable. -/
  toie : Bool
  /-- OCIE, the compare interrupt enable. -/
  ocie : Bool
  /-- TOV, the overflow interrupt flag. -/
  tov : Bool
  /-- OCF, the compare interrupt flag. -/
  ocf : Bool
  /-- CB, the registered callback handle. -/
  cb : Code
deriving DecidableEq, Repr

/-- The three timers (00_scope.md R3). -/
structure Timers where
  t0 : TimerRegs
  t1 : TimerRegs
  t2 : TimerRegs
deriving DecidableEq, Repr

/-- The state of one external-interrupt line (10_state.md R45). -/
structure LineRegs where
  /-- EN, the peripheral-level enable. -/
  en : Bool
  /-- EDGE, the edge-detection mode. -/
  edge : EdgeMode
  /-- INTF, the pending flag. -/
  intf : Bool
  /-- XCB, the callback handle. -/
  xcb : Code
deriving DecidableEq, Repr

/-- The three lines. -/
structure Lines where
  l0 : LineRegs
  l1 : LineRegs
  l2 : LineRegs
deriving DecidableEq, Repr

/-- The whole state: every element of 10_state.md R56, the parameters of 00_scope.md R8 (log entry
1), and the model's own two fields that say who steps next (log entry 4). -/
structure State where
  /-- The timers' registers (10_state.md R35 to R42). -/
  timers : Timers
  /-- The lines' registers (10_state.md R45). -/
  lines : Lines
  /-- I, the global interrupt enable (10_state.md R44). -/
  gie : Bool
  /-- RES, the result of the last command of the main context (10_state.md R31). -/
  res : ResultCode
  /-- VAL, the count read by the last successful TMR.RDCNT (10_state.md R31). -/
  val : Half
  /-- PC, a word index into the driver program; it does not wrap (10_state.md R33). -/
  pc : Nat
  /-- SPC, the sequencer label (10_state.md R34). -/
  spc : Label
  /-- The local d: the delay count sampled at R_SAMPLE (10_state.md R32). -/
  d : Byte
  /-- The local p: the PWM count sampled in the ON and OFF loops (10_state.md R32). -/
  p : Byte
  /-- The local k: the current maneuver (10_state.md R32). -/
  k : Maneuver
  /-- pwmTickCount (10_state.md R46). -/
  pwmTickCount : Byte
  /-- delayTickCount (10_state.md R47). -/
  delayTickCount : Byte
  /-- runState (10_state.md R48). -/
  runState : RunState
  /-- OUT, the output log, oldest first (10_state.md R52). -/
  out : List OutEvent
  /-- The motors' level (10_state.md R52, R56; log entry 10). -/
  motor : Motor
  /-- The indicators' levels (10_state.md R52, R56; log entry 10). -/
  leds : Leds
  /-- BTN, the debounced start reading (10_state.md R53). -/
  btn : Bool
  /-- REFUSED (10_state.md R54). -/
  refused : Option RefusalReason
  /-- The parameters; no step writes them (00_scope.md R8, log entry 1). -/
  params : Params
  /-- What the main context runs; no step writes it (00_scope.md R8, 20_memory.md R82). -/
  mainProgram : MainProgram
  /-- THE MODEL'S OWN: the event words the outside names for the next steps, first one first
  (30_encoding.md R90, R103; log entry 4). -/
  trace : List Word
  /-- THE MODEL'S OWN: how many free choices of the next agent have been taken (log entry 4). -/
  choices : Nat
deriving DecidableEq, Repr

/-- A timer's registers right after reset (10_state.md R56). -/
def TimerRegs.reset : TimerRegs where
  cnt := 0
  ocr := 0
  wgm := .normal
  com := 0
  cs := .off
  toie := false
  ocie := false
  tov := false
  ocf := false
  cb := 0

/-- A line's registers right after reset (10_state.md R56). -/
def LineRegs.reset : LineRegs where
  en := false
  edge := .low
  intf := false
  xcb := 0

/-- The machine right after reset (10_state.md R56, 70_reset_and_hazards.md R340 to R342). The
values of d, p, k (log entry 9), the levels (log entry 10), BTN (log entry 8) and the main program
(log entry 7) are the model's; the parameters are R8's defaults and the OPEN constants. -/
def State.reset : State where
  timers := { t0 := .reset, t1 := .reset, t2 := .reset }
  lines := { l0 := .reset, l1 := .reset, l2 := .reset }
  gie := false
  res := .ok
  val := 0
  pc := 0
  spc := .bFast
  d := 0
  p := 0
  k := .longSide
  pwmTickCount := 0
  delayTickCount := 0
  runState := .stopped
  out := []
  motor := .stopped
  leds := { shortSide := false, longSide := false, rotate := false, stop := false }
  btn := false
  refused := none
  params := Config.params
  mainProgram := .application
  trace := []
  choices := 0

end Sys2Proof.Machine
end

