-- ==== Sys2Proof/Machine/Operands.lean ====
section
/-! DEFINITION. Operand forms: what a raw field names, and the validity predicates of the driver, the
manager and the external-interrupt manager (30_encoding.md R95 to R101, 40_timer_driver.md R120 to
R126, 42_timer_manager.md R180, 43_exti.md R200, R201). -/

namespace Sys2Proof.Machine

/-! ### Codes of the enumerations -/

/-- The identifier code of a timer (00_scope.md R8). -/
def timerCode : TimerId → Code
  | .t0 => 0
  | .t1 => 1
  | .t2 => 2

/-- The timer an ID field names; none is `not idValid` (40_timer_driver.md R120). -/
def timerOf (id : Code) : Option TimerId :=
  match id.toNat with
  | 0 => some .t0
  | 1 => some .t1
  | 2 => some .t2
  | _ => none

/-- The code of a line. -/
def lineCode : Line → Code
  | .l0 => 0
  | .l1 => 1
  | .l2 => 2

/-- The line an ID field names; none is `not lineValid` (43_exti.md R200). -/
def lineOf (id : Code) : Option Line :=
  match id.toNat with
  | 0 => some .l0
  | 1 => some .l1
  | 2 => some .l2
  | _ => none

/-- The code of a mode (30_encoding.md R97). -/
def modeCode : WaveMode → Code
  | .normal => 0
  | .pcpwm => 1
  | .ctc => 2
  | .fpwm => 3

/-- The mode an A field names; none is `not modeValid` (40_timer_driver.md R120). -/
def modeOf (a : Code) : Option WaveMode :=
  match a.toNat with
  | 0 => some .normal
  | 1 => some .pcpwm
  | 2 => some .ctc
  | 3 => some .fpwm
  | _ => none

/-- The code of a clock setting (30_encoding.md R96). -/
def clockCode : Clock → Code
  | .off => 0
  | .div1 => 1
  | .div8 => 2
  | .div32 => 3
  | .div64 => 4
  | .div128 => 5
  | .div256 => 6
  | .div1024 => 7
  | .extf => 8
  | .extr => 9

/-- The clock an A field names; none is a code above 9 (30_encoding.md R96). -/
def clockOf (a : Code) : Option Clock :=
  match a.toNat with
  | 0 => some .off
  | 1 => some .div1
  | 2 => some .div8
  | 3 => some .div32
  | 4 => some .div64
  | 5 => some .div128
  | 6 => some .div256
  | 7 => some .div1024
  | 8 => some .extf
  | 9 => some .extr
  | _ => none

/-- The code of an edge mode (30_encoding.md R100). -/
def edgeCode : EdgeMode → Code
  | .low => 0
  | .any => 1
  | .fall => 2
  | .rise => 3

/-- The edge mode an A field names; none is a code above 3 (30_encoding.md R100). -/
def edgeOf (a : Code) : Option EdgeMode :=
  match a.toNat with
  | 0 => some .low
  | 1 => some .any
  | 2 => some .fall
  | 3 => some .rise
  | _ => none

/-- The code of an interrupt source (30_encoding.md R101). -/
def sourceCode : IrqSource → Code
  | .ext .l0 => 0
  | .ext .l1 => 1
  | .ext .l2 => 2
  | .ovf .t0 => 3
  | .comp .t0 => 4
  | .ovf .t1 => 5
  | .comp .t1 => 6
  | .ovf .t2 => 7
  | .comp .t2 => 8

/-- The interrupt source an A field names (30_encoding.md R101). -/
def sourceOf (a : Code) : Option IrqSource :=
  match a.toNat with
  | 0 => some (.ext .l0)
  | 1 => some (.ext .l1)
  | 2 => some (.ext .l2)
  | 3 => some (.ovf .t0)
  | 4 => some (.comp .t0)
  | 5 => some (.ovf .t1)
  | 6 => some (.comp .t1)
  | 7 => some (.ovf .t2)
  | 8 => some (.comp .t2)
  | _ => none

/-- The numeric value of a result code (60_exceptions.md R300). -/
def resultValue : ResultCode → BitVec 2
  | .ok => 0
  | .nok => 1
  | .nullPtr => 2

/-- The null callback handle (30_encoding.md R99). -/
def nullHandle : Code := 0
/-- The handle of FastTick (30_encoding.md R99). -/
def fastHandle : Code := 1
/-- The handle of SlowTick (30_encoding.md R99). -/
def slowHandle : Code := 2
/-- The handle of Abort (30_encoding.md R99). -/
def abortHandle : Code := 3

/-- W(t) of the parameters (00_scope.md R8). -/
def widthOf (q : Params) (t : TimerId) : Width :=
  match t with
  | .t0 => q.widthT0
  | .t1 => q.widthT1
  | .t2 => q.widthT2

/-- `trunc_W(v)`: the low w bits of a 16-bit value (00_scope.md R11, 30_encoding.md R94). -/
def truncTo (w : Nat) (v : Half) : Half := BitVec.ofNat 16 (v.toNat % 2 ^ w)

/-! ### Validity predicates -/

/-- `comValid` (40_timer_driver.md R120). -/
def comValid (b : Code) : Bool := b.toNat ≤ 3

/-- `pwmValid` (40_timer_driver.md R120). -/
def pwmValid (c : Code) : Bool := c.toNat ≤ 2

/-- `subValid`: Normal and CTC check the compare-output mode, the PWM modes the PWM output mode
(40_timer_driver.md R120). -/
def subValid (m : WaveMode) (b c : Code) : Bool :=
  match m with
  | .normal => comValid b
  | .ctc => comValid b
  | .pcpwm => pwmValid c
  | .fpwm => pwmValid c

/-- `pwmCom`: the COM field of a PWM output mode (40_timer_driver.md R122). -/
def pwmCom (c : Code) : BitVec 2 :=
  match c.toNat with
  | 0 => 0
  | 1 => 2
  | _ => 3

/-- What INIT writes into COM (40_timer_driver.md R121). -/
def comField (m : WaveMode) (b c : Code) : BitVec 2 :=
  match m with
  | .normal => b.setWidth 2
  | .ctc => b.setWidth 2
  | .pcpwm => pwmCom c
  | .fpwm => pwmCom c

/-- `clockValid(t, c)` (40_timer_driver.md R126): 32 and 128 are T2's only, the external clocks are
T2's only where the parameter t2ExternalClock says so. -/
def clockValid (t2ExternalClock : Bool) (t : TimerId) (c : Clock) : Bool :=
  match t, c with
  | .t0, .div32 => false
  | .t0, .div128 => false
  | .t1, .div32 => false
  | .t1, .div128 => false
  | .t2, .extf => t2ExternalClock
  | .t2, .extr => t2ExternalClock
  | _, _ => true

/-- `edgeValid(l, e)` for the four modes (43_exti.md R201): line 2 accepts the two edges only. -/
def edgeValid (l : Line) (e : EdgeMode) : Bool :=
  match l, e with
  | .l2, .low => false
  | .l2, .any => false
  | _, _ => true

/-- `mgrIdOk` (42_timer_manager.md R180). -/
def mgrIdOk (id : Code) : Bool := (timerOf id).isSome

/-- `mgrClockOk` (42_timer_manager.md R180). -/
def mgrClockOk (a : Code) : Bool := a.toNat ≤ 9

/-- `combine(r1, r2)` (42_timer_manager.md R182). -/
def combine (r1 r2 : ResultCode) : ResultCode :=
  match r1, r2 with
  | .ok, .ok => .ok
  | _, _ => .nok

/-- What 00_scope.md R8 asks of the parameters: two different timers, clocks that are valid and not
off, an edge the abort line accepts. -/
def paramsValid (q : Params) : Bool :=
  q.fastTimer != q.slowTimer
    && clockValid q.t2ExternalClock q.fastTimer q.clockFast && q.clockFast != .off
    && clockValid q.t2ExternalClock q.slowTimer q.clockSlow && q.clockSlow != .off
    && edgeValid q.abortLine q.abortEdge

end Sys2Proof.Machine
end

