-- ==== Sys2Proof/Machine/Flags.lean ====
section
/-! DEFINITION. Flag and enable computations: the interrupt enables INIT programs (40_timer_driver.md
R123), the count and the flags after one clock edge (41_timer_counter.md R161 to R164), and the flag,
enable and callback columns of the interrupt sources (60_exceptions.md R307). -/

namespace Sys2Proof.Machine

/-- `ieTable(m).TOIE` (40_timer_driver.md R123). -/
def initToie : WaveMode → Bool
  | .normal => true
  | .pcpwm => false
  | .ctc => false
  | .fpwm => false

/-- `ieTable(m).OCIE` (40_timer_driver.md R123). -/
def initOcie : WaveMode → Bool
  | .normal => false
  | .pcpwm => false
  | .ctc => true
  | .fpwm => false

/-- MAX(t), the largest count of w bits (00_scope.md R8). -/
def maxCount (w : Nat) : Half := BitVec.ofNat 16 (2 ^ w - 1)

/-- The count after a Normal-mode edge (41_timer_counter.md R161). -/
def normalCount (w : Nat) (old : Half) : Half :=
  if old = maxCount w then 0 else old + 1

/-- The count after a CTC-mode edge (41_timer_counter.md R163). -/
def ctcCount (w : Nat) (ocr old : Half) : Half :=
  if old = ocr ∨ old = maxCount w then 0 else old + 1

/-- TOV after an edge: set when the old count is MAX, never cleared (41_timer_counter.md R161,
R164). -/
def tovAfter (w : Nat) (old : Half) (tov : Bool) : Bool :=
  tov || decide (old = maxCount w)

/-- OCF after an edge: set when the old count is OCR, never cleared (41_timer_counter.md R162,
R164). -/
def ocfAfter (ocr old : Half) (ocf : Bool) : Bool :=
  ocf || decide (old = ocr)

/-- One Normal-mode clock edge of a timer of w bits (41_timer_counter.md R161, R162). -/
def tickNormal (w : Nat) (r : TimerRegs) : TimerRegs :=
  { r with cnt := normalCount w r.cnt, tov := tovAfter w r.cnt r.tov, ocf := ocfAfter r.ocr r.cnt r.ocf }

/-- One CTC-mode clock edge of a timer of w bits (41_timer_counter.md R163, R164). -/
def tickCtc (w : Nat) (r : TimerRegs) : TimerRegs :=
  { r with cnt := ctcCount w r.ocr r.cnt, tov := tovAfter w r.cnt r.tov, ocf := ocfAfter r.ocr r.cnt r.ocf }

end Sys2Proof.Machine
end

