-- ==== Sys2Proof/Machine/Ops.lean ====
section
/-! DEFINITION. The named operations over the state: the accessors of timers and lines, the primitives
of 00_scope.md R13, the operations of the driver, the manager and the external-interrupt manager as
functions that return a result code, the callbacks, and TAKING AN INTERRUPT as one shared operation
(60_exceptions.md R311 to R317). -/

namespace Sys2Proof.Machine

/-! ### Accessors -/

/-- The registers of timer t. -/
def Timers.get (ts : Timers) : TimerId → TimerRegs
  | .t0 => ts.t0
  | .t1 => ts.t1
  | .t2 => ts.t2

/-- The timers with the registers of timer t replaced. -/
def Timers.set (ts : Timers) : TimerId → TimerRegs → Timers
  | .t0, r => { ts with t0 := r }
  | .t1, r => { ts with t1 := r }
  | .t2, r => { ts with t2 := r }

/-- The registers of line l. -/
def Lines.get (ls : Lines) : Line → LineRegs
  | .l0 => ls.l0
  | .l1 => ls.l1
  | .l2 => ls.l2

/-- The lines with the registers of line l replaced. -/
def Lines.set (ls : Lines) : Line → LineRegs → Lines
  | .l0, r => { ls with l0 := r }
  | .l1, r => { ls with l1 := r }
  | .l2, r => { ls with l2 := r }

/-- The registers of timer t of a state. -/
def State.timer (s : State) (t : TimerId) : TimerRegs := s.timers.get t

/-- Write the registers of timer t. -/
def State.setTimer (s : State) (t : TimerId) (r : TimerRegs) : State :=
  { s with timers := s.timers.set t r }

/-- W(t), the counter width of timer t in bits: a parameter, which no step writes (00_scope.md R8). -/
def State.width (s : State) (t : TimerId) : Nat := (widthOf s.params t).val

/-- The registers of line l of a state. -/
def State.line (s : State) (l : Line) : LineRegs := s.lines.get l

/-- Write the registers of line l. -/
def State.setLine (s : State) (l : Line) (r : LineRegs) : State :=
  { s with lines := s.lines.set l r }

/-- The level of an indicator. -/
def Leds.get (ls : Leds) : Maneuver → Bool
  | .longSide => ls.longSide
  | .stop => ls.stop
  | .rotate => ls.rotate
  | .shortSide => ls.shortSide

/-- Set the level of an indicator. -/
def Leds.set (ls : Leds) (i : Maneuver) (v : Bool) : Leds :=
  match i with
  | .longSide => { ls with longSide := v }
  | .stop => { ls with stop := v }
  | .rotate => { ls with rotate := v }
  | .shortSide => { ls with shortSide := v }

/-! ### Primitives (00_scope.md R13) -/

/-- `raise Refuse(reason)`: set REFUSED, nothing else (00_scope.md R13, 60_exceptions.md R306). -/
def raise (r : RefusalReason) (s : State) : State := { s with refused := some r }

/-- `return r` of an operation the main context issued: write RES (00_scope.md R13). -/
def issue (x : ResultCode × State) : State := { x.2 with res := x.1 }

/-- The motors' level after an output event (log entry 10). -/
def motorAfter (o : OutEvent) (m : Motor) : Motor :=
  match o with
  | .carForward => .forward
  | .carRotate => .rotate
  | .carStop => .stopped
  | .led _ _ => m

/-- The indicators' levels after an output event (log entry 10). -/
def ledsAfter (o : OutEvent) (ls : Leds) : Leds :=
  match o with
  | .carForward => ls
  | .carRotate => ls
  | .carStop => ls
  | .led i v => ls.set i v

/-- `emit(o)`: append to OUT (00_scope.md R13, 10_state.md R52) and drive the level. -/
def emit (o : OutEvent) (s : State) : State :=
  { s with out := s.out ++ [o], motor := motorAfter o s.motor, leds := ledsAfter o s.leds }

/-- `goto L` (00_scope.md R13). -/
def goto (l : Label) (s : State) : State := { s with spc := l }

/-! ### Timer Peripheral Driver operations (40_timer_driver.md) -/

/-- The registers INIT leaves: count and compare value truncated to W(t) bits, the mode, the
compare-output field and the enables, clock off, both flags clear, callback kept
(40_timer_driver.md R121). -/
def initRegs (w : Nat) (m : WaveMode) (b c : Code) (cv ic : Half) (r : TimerRegs) : TimerRegs :=
  { cnt := truncTo w ic, ocr := truncTo w cv, wgm := m, com := comField m b c, cs := .off,
    toie := initToie m, ocie := initOcie m, tov := false, ocf := false, cb := r.cb }

/-- TMR.INIT's operation (40_timer_driver.md R121); H is ignored. -/
def driverInit (p : Bool) (id a b c : Code) (cv ic : Half) (s : State) : ResultCode × State :=
  if p then
    match timerOf id with
    | none => (.nok, s)
    | some t =>
      match modeOf a with
      | none => (.nok, s)
      | some m =>
        if subValid m b c then (.ok, s.setTimer t (initRegs (s.width t) m b c cv ic (s.timer t)))
        else (.nok, s)
  else (.nok, s)

/-- TMR.SETCB's operation: the null callback is checked first (40_timer_driver.md R124). -/
def driverSetcb (id h : Code) (s : State) : ResultCode × State :=
  if h = nullHandle then (.nullPtr, s)
  else
    match timerOf id with
    | none => (.nok, s)
    | some t => (.ok, s.setTimer t { s.timer t with cb := h })

/-- TMR.START's operation: sets CS and I on success only (40_timer_driver.md R125). -/
def driverStart (id a : Code) (s : State) : ResultCode × State :=
  match timerOf id with
  | none => (.nok, s)
  | some t =>
    match clockOf a with
    | none => (.nok, s)
    | some c =>
      if clockValid s.params.t2ExternalClock t c then
        (.ok, { s.setTimer t { s.timer t with cs := c } with gie := true })
      else (.nok, s)

/-- TMR.STOP's operation (40_timer_driver.md R127). -/
def driverStop (id : Code) (s : State) : ResultCode × State :=
  match timerOf id with
  | none => (.nok, s)
  | some t => (.ok, s.setTimer t { s.timer t with cs := .off })

/-- TMR.SETVAL's operation: the count keeps the low W(t) bits (40_timer_driver.md R129). -/
def driverSetval (id : Code) (v : Half) (s : State) : ResultCode × State :=
  match timerOf id with
  | none => (.nok, s)
  | some t => (.ok, s.setTimer t { s.timer t with cnt := truncTo (s.width t) v })

/-- TMR.RESET's operation: every register of the timer but the callback (40_timer_driver.md R130). -/
def driverReset (id : Code) (s : State) : ResultCode × State :=
  match timerOf id with
  | none => (.nok, s)
  | some t => (.ok, s.setTimer t { TimerRegs.reset with cb := (s.timer t).cb })

/-- TMR.RDCNT's operation: the count, zero-extended to 16 bits (as it is held), into VAL
(40_timer_driver.md R131). -/
def driverRdcnt (id : Code) (s : State) : ResultCode × State :=
  match timerOf id with
  | none => (.nok, s)
  | some t => (.ok, { s with val := (s.timer t).cnt })

/-! ### Timer Manager operations (42_timer_manager.md) -/

/-- TMGR.INIT's operation: the driver's INIT, then SETCB for a callback that is not null, then
combine (42_timer_manager.md R181, R182). -/
def mgrInit (p : Bool) (id a b c h : Code) (cv ic : Half) (s : State) : ResultCode × State :=
  if p then
    if mgrIdOk id then
      let x1 := driverInit p id a b c cv ic s
      let x2 := if x1.1 = .ok ∧ h ≠ nullHandle then driverSetcb id h x1.2 else (.ok, x1.2)
      (combine x1.1 x2.1, x2.2)
    else (.nok, s)
  else (.nullPtr, s)

/-- TMGR.START's operation (42_timer_manager.md R183). -/
def mgrStart (id a : Code) (s : State) : ResultCode × State :=
  if mgrIdOk id then
    if mgrClockOk a then driverStart id a s else (.nok, s)
  else (.nok, s)

/-- TMGR.STOP's operation (42_timer_manager.md R184). -/
def mgrStop (id : Code) (s : State) : ResultCode × State :=
  if mgrIdOk id then driverStop id s else (.nok, s)

/-- TMGR.SETVAL's operation (42_timer_manager.md R185). -/
def mgrSetval (id : Code) (v : Half) (s : State) : ResultCode × State :=
  if mgrIdOk id then driverSetval id v s else (.nok, s)

/-! ### External Interrupt Manager operations (43_exti.md) -/

/-- EXTI.INIT's operation (43_exti.md R202). -/
def extInit (p : Bool) (id a h : Code) (s : State) : ResultCode × State :=
  if p then
    if h = nullHandle then (.nullPtr, s)
    else
      match lineOf id with
      | none => (.nok, s)
      | some l =>
        match edgeOf a with
        | none => (.nok, s)
        | some e =>
          if edgeValid l e then (.ok, s.setLine l { s.line l with edge := e, xcb := h }) else (.nok, s)
  else (.nullPtr, s)

/-- EXTI.ENABLE's operation (43_exti.md R203). -/
def extEnable (id : Code) (s : State) : ResultCode × State :=
  match lineOf id with
  | none => (.nok, s)
  | some l => (.ok, s.setLine l { s.line l with en := true })

/-- EXTI.DISABLE's operation (43_exti.md R204). -/
def extDisable (id : Code) (s : State) : ResultCode × State :=
  match lineOf id with
  | none => (.nok, s)
  | some l => (.ok, s.setLine l { s.line l with en := false })

/-- EXTI.SETCB's operation: the null callback is checked first (43_exti.md R205). -/
def extSetcb (id h : Code) (s : State) : ResultCode × State :=
  if h = nullHandle then (.nullPtr, s)
  else
    match lineOf id with
    | none => (.nok, s)
    | some l => (.ok, s.setLine l { s.line l with xcb := h })

/-! ### Callbacks (44_sequencer.md R230 to R233) -/

/-- FastTick: count modulo 256, then re-arm, result discarded (44_sequencer.md R231). -/
def fastTick (s : State) : State :=
  (mgrSetval (timerCode s.params.fastTimer) s.params.preloadFast
    { s with pwmTickCount := s.pwmTickCount + 1 }).2

/-- SlowTick: count modulo 256, then re-arm, result discarded (44_sequencer.md R232). -/
def slowTick (s : State) : State :=
  (mgrSetval (timerCode s.params.slowTimer) s.params.preloadSlow
    { s with delayTickCount := s.delayTickCount + 1 }).2

/-- Abort: zero both counters and stop (44_sequencer.md R233). -/
def abort (s : State) : State :=
  { s with pwmTickCount := 0, delayTickCount := 0, runState := .stopped }

/-- `invoke(h)` (44_sequencer.md R230): a null handle does nothing, an opaque one is refused. -/
def invoke (h : Code) (s : State) : Except RefusalReason State :=
  match h.toNat with
  | 0 => .ok s
  | 1 => .ok (fastTick s)
  | 2 => .ok (slowTick s)
  | 3 => .ok (abort s)
  | _ => .error .opaqueCallback

/-! ### Interrupts (60_exceptions.md R307 to R317) -/

/-- The flag column of 60_exceptions.md R307. -/
def irqFlag (src : IrqSource) (s : State) : Bool :=
  match src with
  | .ext l => (s.line l).intf
  | .ovf t => (s.timer t).tov
  | .comp t => (s.timer t).ocf

/-- The enable column of 60_exceptions.md R307. -/
def irqEnable (src : IrqSource) (s : State) : Bool :=
  match src with
  | .ext l => (s.line l).en
  | .ovf t => (s.timer t).toie
  | .comp t => (s.timer t).ocie

/-- The callback column of 60_exceptions.md R307; a timer's two sources share its slot (R308). -/
def irqSlot (src : IrqSource) (s : State) : Code :=
  match src with
  | .ext l => (s.line l).xcb
  | .ovf t => (s.timer t).cb
  | .comp t => (s.timer t).cb

/-- Clear the flag of a source (60_exceptions.md R313, R314). -/
def clearFlag (src : IrqSource) (s : State) : State :=
  match src with
  | .ext l => s.setLine l { s.line l with intf := false }
  | .ovf t => s.setTimer t { s.timer t with tov := false }
  | .comp t => s.setTimer t { s.timer t with ocf := false }

/-- TAKING AN INTERRUPT, the one shared operation (60_exceptions.md R312 to R317): clear the flag,
run the callback, return to the same PC or SPC, I unchanged. Nothing is saved. An opaque callback is
refused, and then nothing else changes, the flag included (R306). -/
def dispatch (src : IrqSource) (s : State) : State :=
  match invoke (irqSlot src s) (clearFlag src s) with
  | .ok s' => s'
  | .error r => raise r s

/-! ### Enabledness (30_encoding.md R103, 60_exceptions.md R306, R311) -/

/-- No refusal has happened: after one, no agent has an enabled step (60_exceptions.md R306). -/
def live (s : State) : Bool := s.refused.isNone

/-- A timer is running exactly when its clock select is not off (10_state.md R39). -/
def running (t : TimerId) (s : State) : Bool := (s.timer t).cs != .off

/-- EV.TICK of a timer is enabled (41_timer_counter.md R160). -/
def tickEnabled (t : TimerId) (s : State) : Bool := live s && running t s

/-- EV.IRQ of a source is enabled (60_exceptions.md R311). -/
def irqEnabled (src : IrqSource) (s : State) : Bool :=
  s.gie && irqFlag src s && irqEnable src s && live s

/-- The main context has a step: the firmware always, a driver program until its end
(30_encoding.md R104, 10_state.md R33). -/
def mainHasStep (s : State) : Bool :=
  match s.mainProgram with
  | .application => true
  | .driverProgram words => decide (s.pc < words.length)

/-- EV.MAIN is enabled (30_encoding.md R104). -/
def mainEnabled (s : State) : Bool := live s && mainHasStep s

/-- A step of an agent: it happens when the agent's step is enabled, else the trace is not a run
(60_exceptions.md R304.3). -/
def whenEnabled (enabled : Bool) (s : State) : Host.Outcome State Fault Refusal :=
  if enabled then .next s else .fault .notEnabled

/-- One clock edge of a running timer, by its mode; the PWM modes are refused (41_timer_counter.md
R160 to R165). -/
def tick (t : TimerId) (s : State) : State :=
  match (s.timer t).wgm with
  | .normal => s.setTimer t (tickNormal (s.width t) (s.timer t))
  | .ctc => s.setTimer t (tickCtc (s.width t) (s.timer t))
  | .pcpwm => raise .pwmCountingNotModelled s
  | .fpwm => raise .pwmCountingNotModelled s

/-! ### The lifecycle read off the registers (10_state.md R43) -/

/-- The lifecycle of a timer (10_state.md R43): RUNNING when it runs, else UNCONFIGURED when the mode
is Normal and TOIE is clear, as reset and TMR.RESET leave it and no successful INIT does (log entry
18), else CONFIGURED-STOPPED. -/
def lifecycle (t : TimerId) (s : State) : Lifecycle :=
  if running t s then .running
  else if (s.timer t).wgm = .normal ∧ (s.timer t).toie = false then .unconfigured
  else .configuredStopped

end Sys2Proof.Machine
end

