-- ==== Sys2Proof/Machine/Exti.lean ====
section
/-! DEFINITION. The meanings of the External Interrupt Manager's commands (43_exti.md). -/

namespace Sys2Proof.Machine

/-- EXTI.INIT (43_exti.md R202). -/
def execExtiInit (p : Bool) (id a h : Code) (s : State) : Host.Outcome State Fault Refusal :=
  .next (issue (extInit p id a h s))

/-- EXTI.ENABLE (43_exti.md R203). -/
def execExtiEnable (id : Code) (s : State) : Host.Outcome State Fault Refusal :=
  .next (issue (extEnable id s))

/-- EXTI.DISABLE (43_exti.md R204). -/
def execExtiDisable (id : Code) (s : State) : Host.Outcome State Fault Refusal :=
  .next (issue (extDisable id s))

/-- EXTI.SETCB (43_exti.md R205). -/
def execExtiSetcb (id h : Code) (s : State) : Host.Outcome State Fault Refusal :=
  .next (issue (extSetcb id h s))

end Sys2Proof.Machine
end

