-- ==== Sys2Proof/Machine/Firmware.lean ====
section
/-! DEFINITION. The sequencer firmware (44_sequencer.md R235 to R263): the schedule, the maneuvers'
attributes and one micro-step for each label. Every micro-step is one EV.MAIN step in Application
mode; its command writes RES (R235) and the firmware never reads it (R264). -/

namespace Sys2Proof.Machine

/-- `schedule(d)` for the values that dispatch a maneuver; none in the grace band and where the
schedule wraps (44_sequencer.md R247). -/
def schedule (d : Byte) : Option Maneuver :=
  if d ≤ 2 then none
  else if d ≤ 8 then some .longSide
  else if d ≤ 9 then some .stop
  else if d ≤ 10 then some .rotate
  else if d ≤ 11 then some .stop
  else if d ≤ 15 then some .shortSide
  else if d ≤ 16 then some .stop
  else if d ≤ 17 then some .rotate
  else if d ≤ 18 then some .stop
  else none

/-- `ONcommand(k)`; the Stop maneuver has none (44_sequencer.md R253). -/
def onCommand : Maneuver → Option OutEvent
  | .longSide => some .carForward
  | .shortSide => some .carForward
  | .rotate => some .carRotate
  | .stop => none

/-- Emit an output event where there is one. -/
def emitSome (o : Option OutEvent) (s : State) : State :=
  match o with
  | none => s
  | some e => emit e s

/-- Set the indicators one-hot, in the source's order (44_sequencer.md R254). -/
def emitOneHot (k : Maneuver) (s : State) : State :=
  emit (.led .stop (k == .stop))
    (emit (.led .rotate (k == .rotate))
      (emit (.led .longSide (k == .longSide))
        (emit (.led .shortSide (k == .shortSide)) s)))

/-- The ON test `p < DUTY(k)` (44_sequencer.md R258). A maneuver without a threshold has no ON phase
(log entry 13). -/
def onTest (k : Maneuver) (p : Byte) : Bool :=
  match Config.duty k with
  | none => false
  | some n => decide (p < n)

/-- The OFF test `DUTY(k) ≤ p` and `p < WINDOW` (44_sequencer.md R260). A maneuver without a
threshold has no OFF phase (log entry 13). -/
def offTest (k : Maneuver) (p : Byte) : Bool :=
  match Config.duty k with
  | none => false
  | some n => decide (n ≤ p) && decide (p < Config.window)

/-! ### Boot (44_sequencer.md R236 to R238) -/

/-- B_FAST. -/
def stepBFast (s : State) : State :=
  goto .bSlow (issue (mgrInit true (timerCode s.params.fastTimer) (modeCode .normal) 0 0 fastHandle 0
    s.params.preloadFast s))

/-- B_SLOW. -/
def stepBSlow (s : State) : State :=
  goto .bExti (issue (mgrInit true (timerCode s.params.slowTimer) (modeCode .normal) 0 0 slowHandle 0
    s.params.preloadSlow s))

/-- B_EXTI. -/
def stepBExti (s : State) : State :=
  goto .loop (issue (extInit true (lineCode s.params.abortLine) (edgeCode s.params.abortEdge)
    abortHandle s))

/-! ### The loop head and STOPPED (44_sequencer.md R239 to R246) -/

/-- LOOP. -/
def stepLoop (s : State) : State :=
  match s.runState with
  | .stopped => goto .sExtiDis s
  | .running => goto .rExtiEn s

/-- S_EXTI_DIS. -/
def stepSExtiDis (s : State) : State :=
  goto .sTstop (issue (extDisable (lineCode s.params.abortLine) s))

/-- S_TSTOP. -/
def stepSTstop (s : State) : State :=
  goto .sCarstop (issue (mgrStop (timerCode s.params.slowTimer) s))

/-- S_CARSTOP. -/
def stepSCarstop (s : State) : State := goto .sLed (emit .carStop s)

/-- S_LED: only the stop indicator is written. -/
def stepSLed (s : State) : State := goto .sPoll (emit (.led .stop true) s)

/-- S_POLL. -/
def stepSPoll (s : State) : State := if s.btn then goto .sRun s else goto .loop s

/-- S_RUN. -/
def stepSRun (s : State) : State := goto .sZero { s with runState := .running }

/-- S_ZERO. -/
def stepSZero (s : State) : State := goto .loop { s with delayTickCount := 0 }

/-! ### RUNNING (44_sequencer.md R248 to R252) -/

/-- R_EXTI_EN. -/
def stepRExtiEn (s : State) : State :=
  goto .rTstart (issue (extEnable (lineCode s.params.abortLine) s))

/-- R_TSTART. -/
def stepRTstart (s : State) : State :=
  goto .rSample (issue (mgrStart (timerCode s.params.slowTimer) (clockCode s.params.clockSlow) s))

/-- R_SAMPLE: the one read of delayTickCount. -/
def stepRSample (s : State) : State := goto .rDispatch { s with d := s.delayTickCount }

/-- R_DISPATCH: act on the sample. The schedule has a maneuver for every value between GRACE and
WRAP_AT. -/
def stepRDispatch (s : State) : State :=
  if s.d ≤ Config.grace then goto .loop s
  else if s.d > Config.wrapAt then goto .rWrap s
  else
    match schedule s.d with
    | none => goto .loop s
    | some k => goto .mLed { s with k := k }

/-- R_WRAP: store WRAP_TO, without reading the counter (44_sequencer.md R252; the parameter of
00_scope.md R8). -/
def stepRWrap (s : State) : State := goto .loop { s with delayTickCount := s.params.wrapTo }

/-! ### Maneuvers (44_sequencer.md R254 to R263) -/

/-- M_LED. -/
def stepMLed (s : State) : State :=
  goto (if s.k = .stop then .mStopcmd else .mPzero) (emitOneHot s.k s)

/-- M_STOPCMD. -/
def stepMStopcmd (s : State) : State := goto .loop (emit .carStop s)

/-- M_PZERO. -/
def stepMPzero (s : State) : State := goto .mFstart { s with pwmTickCount := 0 }

/-- M_FSTART. -/
def stepMFstart (s : State) : State :=
  goto .mOn (issue (mgrStart (timerCode s.params.fastTimer) (clockCode s.params.clockFast) s))

/-- M_ON: one sample, one test. -/
def stepMOn (s : State) : State :=
  goto (if onTest s.k s.pwmTickCount then .mOncmd else .mOff) { s with p := s.pwmTickCount }

/-- M_ONCMD. -/
def stepMOncmd (s : State) : State := goto .mOn (emitSome (onCommand s.k) s)

/-- M_OFF: one sample, one test. -/
def stepMOff (s : State) : State :=
  goto (if offTest s.k s.pwmTickCount then .mOffcmd else .mFstop) { s with p := s.pwmTickCount }

/-- M_OFFCMD. -/
def stepMOffcmd (s : State) : State := goto .mOff (emit .carStop s)

/-- M_FSTOP. -/
def stepMFstop (s : State) : State :=
  goto .mPend (issue (mgrStop (timerCode s.params.fastTimer) s))

/-- M_PEND. -/
def stepMPend (s : State) : State := goto .loop { s with pwmTickCount := 0 }

/-- The micro-step at SPC (44_sequencer.md R235). -/
def microStep (s : State) : State :=
  match s.spc with
  | .bFast => stepBFast s
  | .bSlow => stepBSlow s
  | .bExti => stepBExti s
  | .loop => stepLoop s
  | .sExtiDis => stepSExtiDis s
  | .sTstop => stepSTstop s
  | .sCarstop => stepSCarstop s
  | .sLed => stepSLed s
  | .sPoll => stepSPoll s
  | .sRun => stepSRun s
  | .sZero => stepSZero s
  | .rExtiEn => stepRExtiEn s
  | .rTstart => stepRTstart s
  | .rSample => stepRSample s
  | .rDispatch => stepRDispatch s
  | .rWrap => stepRWrap s
  | .mLed => stepMLed s
  | .mStopcmd => stepMStopcmd s
  | .mPzero => stepMPzero s
  | .mFstart => stepMFstart s
  | .mOn => stepMOn s
  | .mOncmd => stepMOncmd s
  | .mOff => stepMOff s
  | .mOffcmd => stepMOffcmd s
  | .mFstop => stepMFstop s
  | .mPend => stepMPend s

end Sys2Proof.Machine
end

