-- ==== Sys2Proof/Machine/TimerDriver.lean ====
section
/-! DEFINITION. The meanings of the Timer Peripheral Driver's commands (40_timer_driver.md): each runs
its operation and writes the result code into RES (00_scope.md R13). Moving PC past the command is
EV.MAIN's (30_encoding.md R104). -/

namespace Sys2Proof.Machine

/-- TMR.INIT (40_timer_driver.md R121): H is ignored. -/
def execTmrInit (p : Bool) (id a b c _h : Code) (cv ic : Half) (s : State) :
    Host.Outcome State Fault Refusal :=
  .next (issue (driverInit p id a b c cv ic s))

/-- TMR.SETCB (40_timer_driver.md R124). -/
def execTmrSetcb (id h : Code) (s : State) : Host.Outcome State Fault Refusal :=
  .next (issue (driverSetcb id h s))

/-- TMR.START (40_timer_driver.md R125). -/
def execTmrStart (id a : Code) (s : State) : Host.Outcome State Fault Refusal :=
  .next (issue (driverStart id a s))

/-- TMR.STOP (40_timer_driver.md R127). -/
def execTmrStop (id : Code) (s : State) : Host.Outcome State Fault Refusal :=
  .next (issue (driverStop id s))

/-- TMR.SETVAL (40_timer_driver.md R129). -/
def execTmrSetval (id : Code) (v : Half) (s : State) : Host.Outcome State Fault Refusal :=
  .next (issue (driverSetval id v s))

/-- TMR.RESET (40_timer_driver.md R130). -/
def execTmrReset (id : Code) (s : State) : Host.Outcome State Fault Refusal :=
  .next (issue (driverReset id s))

/-- TMR.RDCNT (40_timer_driver.md R131). -/
def execTmrRdcnt (id : Code) (s : State) : Host.Outcome State Fault Refusal :=
  .next (issue (driverRdcnt id s))

end Sys2Proof.Machine
end

