-- ==== Sys2Proof/Machine/TimerManager.lean ====
section
/-! DEFINITION. The meanings of the Timer Manager's commands (42_timer_manager.md). A forwarded driver
call runs inside the same step and hands its result to the manager, not to RES. -/

namespace Sys2Proof.Machine

/-- TMGR.INIT (42_timer_manager.md R181). -/
def execTmgrInit (p : Bool) (id a b c h : Code) (cv ic : Half) (s : State) :
    Host.Outcome State Fault Refusal :=
  .next (issue (mgrInit p id a b c h cv ic s))

/-- TMGR.START (42_timer_manager.md R183). -/
def execTmgrStart (id a : Code) (s : State) : Host.Outcome State Fault Refusal :=
  .next (issue (mgrStart id a s))

/-- TMGR.STOP (42_timer_manager.md R184). -/
def execTmgrStop (id : Code) (s : State) : Host.Outcome State Fault Refusal :=
  .next (issue (mgrStop id s))

/-- TMGR.SETVAL (42_timer_manager.md R185). -/
def execTmgrSetval (id : Code) (v : Half) (s : State) : Host.Outcome State Fault Refusal :=
  .next (issue (mgrSetval id v s))

end Sys2Proof.Machine
end

