-- ==== Sys2Proof/Machine/Events.lean ====
section
/-! DEFINITION. The meanings of the events: a timer clock edge, an edge on a line, the dispatch of an
interrupt, the button, and one step of the main context (30_encoding.md R103, R104). An event whose
agent has no enabled step is not a step (60_exceptions.md R304.3). -/

namespace Sys2Proof.Machine

/-- EV.TICK (41_timer_counter.md R160). An ID that names no timer has no agent (log entry 15). -/
def execEvTick (id : Code) (s : State) : Host.Outcome State Fault Refusal :=
  match timerOf id with
  | none => .fault .notEnabled
  | some t => whenEnabled (tickEnabled t s) (tick t s)

/-- EV.EXTRIG (43_exti.md R206): set INTF whatever EN is. -/
def execEvExtrig (id : Code) (s : State) : Host.Outcome State Fault Refusal :=
  match lineOf id with
  | none => .fault .notEnabled
  | some l => whenEnabled (live s) (s.setLine l { s.line l with intf := true })

/-- EV.IRQ (60_exceptions.md R311, R312). -/
def execEvIrq (a : Code) (s : State) : Host.Outcome State Fault Refusal :=
  match sourceOf a with
  | none => .fault .notEnabled
  | some src => whenEnabled (irqEnabled src s) (dispatch src s)

/-- EV.BUTTON (44_sequencer.md R265). -/
def execEvButton (v : Bool) (s : State) : Host.Outcome State Fault Refusal :=
  whenEnabled (live s) { s with btn := v }

/-! ### The main context (30_encoding.md R104) -/

/-- The meaning of a command the main context executes: the same meanings exec calls. An event is no
command (30_encoding.md R90). -/
def runCommand (i : Instr) (s : State) : Host.Outcome State Fault Refusal :=
  match i with
  | .tmrInit p id a b c h cv ic => execTmrInit p id a b c h cv ic s
  | .tmrSetcb id h => execTmrSetcb id h s
  | .tmrStart id a => execTmrStart id a s
  | .tmrStop id => execTmrStop id s
  | .tmrSetval id v => execTmrSetval id v s
  | .tmrReset id => execTmrReset id s
  | .tmrRdcnt id => execTmrRdcnt id s
  | .tmgrInit p id a b c h cv ic => execTmgrInit p id a b c h cv ic s
  | .tmgrStart id a => execTmgrStart id a s
  | .tmgrStop id => execTmgrStop id s
  | .tmgrSetval id v => execTmgrSetval id v s
  | .extiInit p id a h => execExtiInit p id a h s
  | .extiEnable id => execExtiEnable id s
  | .extiDisable id => execExtiDisable id s
  | .extiSetcb id h => execExtiSetcb id h s
  | .evTick _ => .fault .notEnabled
  | .evExtrig _ => .fault .notEnabled
  | .evIrq _ => .fault .notEnabled
  | .evButton _ => .fault .notEnabled
  | .evMain => .fault .notEnabled

/-- Set PC in a next state. -/
def withPc (n : Nat) (o : Host.Outcome State Fault Refusal) : Host.Outcome State Fault Refusal :=
  match o with
  | .next s => .next { s with pc := n }
  | .fault r => .fault r
  | .refused r => .refused r

/-- The refusal reason of an Invalid word met by EV.MAIN (60_exceptions.md R306). -/
def invalidReason (e : DecodeError) : RefusalReason :=
  match e with
  | .truncatedCommand => .truncatedCommand
  | .reservedUnit => .invalidEncoding
  | .reservedOp => .invalidEncoding
  | .reservedField => .invalidEncoding
  | .eventRange => .invalidEncoding

/-- One step of a driver program: decode at PC, execute, advance PC by the length; an Invalid word, a
truncated command and an event are refused (30_encoding.md R104, 60_exceptions.md R306). -/
def programStep (words : List Word) (s : State) : Host.Outcome State Fault Refusal :=
  match words[s.pc]? with
  | none => .fault .notEnabled
  | some w0 =>
    match decode w0 words[s.pc + 1]? with
    | .error e => .next (raise (invalidReason e) s)
    | .ok i =>
      if i.isEvent then .next (raise .eventInProgram s)
      else withPc (s.pc + i.length) (runCommand i s)

/-- EV.MAIN (30_encoding.md R104): the command at PC, or the micro-step at SPC. -/
def execEvMain (s : State) : Host.Outcome State Fault Refusal :=
  if mainEnabled s then
    match s.mainProgram with
    | .driverProgram words => programStep words s
    | .application => .next (microStep s)
  else .fault .notEnabled

end Sys2Proof.Machine
end

