-- ==== Sys2Proof/Machine/Dispatch.lean ====
section
/-! DEFINITION. The dispatch: one arm per constructor of Instr. -/

namespace Sys2Proof.Machine

def exec (i : Instr) (s : State) : Host.Outcome State Fault Refusal :=
  match i with
  | .tmrInit p id a b c h cv ic => Sys2Proof.Machine.execTmrInit p id a b c h cv ic s
  | .tmrSetcb id h => Sys2Proof.Machine.execTmrSetcb id h s
  | .tmrStart id a => Sys2Proof.Machine.execTmrStart id a s
  | .tmrStop id => Sys2Proof.Machine.execTmrStop id s
  | .tmrSetval id v => Sys2Proof.Machine.execTmrSetval id v s
  | .tmrReset id => Sys2Proof.Machine.execTmrReset id s
  | .tmrRdcnt id => Sys2Proof.Machine.execTmrRdcnt id s
  | .tmgrInit p id a b c h cv ic => Sys2Proof.Machine.execTmgrInit p id a b c h cv ic s
  | .tmgrStart id a => Sys2Proof.Machine.execTmgrStart id a s
  | .tmgrStop id => Sys2Proof.Machine.execTmgrStop id s
  | .tmgrSetval id v => Sys2Proof.Machine.execTmgrSetval id v s
  | .extiInit p id a h => Sys2Proof.Machine.execExtiInit p id a h s
  | .extiEnable id => Sys2Proof.Machine.execExtiEnable id s
  | .extiDisable id => Sys2Proof.Machine.execExtiDisable id s
  | .extiSetcb id h => Sys2Proof.Machine.execExtiSetcb id h s
  | .evTick id => Sys2Proof.Machine.execEvTick id s
  | .evExtrig id => Sys2Proof.Machine.execEvExtrig id s
  | .evIrq a => Sys2Proof.Machine.execEvIrq a s
  | .evButton v => Sys2Proof.Machine.execEvButton v s
  | .evMain => Sys2Proof.Machine.execEvMain s

end Sys2Proof.Machine
end

