-- ==== Sys2Proof/Machine/Fetch.lean ====
section
/-! DEFINITION. Which event happens next (10_state.md R30, R55; log entry 4): the first word of the
trace, or, when nobody named one, a free choice among the events whose agents have an enabled step;
and how an instruction is placed where the next step takes it. -/

namespace Sys2Proof.Machine

/-- Whether an event's agent has an enabled step (30_encoding.md R103, 60_exceptions.md R311). A
command is no event. -/
def eventEnabled (i : Instr) (s : State) : Bool :=
  match i with
  | .evTick id => (timerOf id).any fun t => tickEnabled t s
  | .evExtrig id => (lineOf id).any fun _ => live s
  | .evIrq a => (sourceOf a).any fun src => irqEnabled src s
  | .evButton _ => live s
  | .evMain => mainEnabled s
  | .tmrInit .. => false
  | .tmrSetcb .. => false
  | .tmrStart .. => false
  | .tmrStop .. => false
  | .tmrSetval .. => false
  | .tmrReset .. => false
  | .tmrRdcnt .. => false
  | .tmgrInit .. => false
  | .tmgrStart .. => false
  | .tmgrStop .. => false
  | .tmgrSetval .. => false
  | .extiInit .. => false
  | .extiEnable .. => false
  | .extiDisable .. => false
  | .extiSetcb .. => false

/-- Every well-formed event (30_encoding.md R102, R103). -/
def allEvents : List Instr :=
  [.evMain, .evButton false, .evButton true,
   .evExtrig 0, .evExtrig 1, .evExtrig 2, .evTick 0, .evTick 1, .evTick 2,
   .evIrq 0, .evIrq 1, .evIrq 2, .evIrq 3, .evIrq 4, .evIrq 5, .evIrq 6, .evIrq 7, .evIrq 8]

/-- The events that may happen next: any enabled agent may step (10_state.md R30). -/
def enabledEvents (s : State) : List Instr := allEvents.filter fun i => eventEnabled i s

/-- The free choice among the enabled events (log entry 4); none when no agent has an enabled step. -/
def freeEvent (s : State) : Option Instr :=
  (enabledEvents s)[Config.schedule s.choices % (enabledEvents s).length]?

/-- The event a word of the trace names. -/
def eventOfWord (w : Word) : Option Instr :=
  match decode w none with
  | .error _ => none
  | .ok i => if i.isEvent then some i else none

/-- The next event and the state with that choice used up. -/
def fetch (s : State) : Except Fault (Instr × State) :=
  match s.trace with
  | w :: rest =>
    match eventOfWord w with
    | none => .error .notAnEvent
    | some i => .ok (i, { s with trace := rest })
  | [] =>
    match freeEvent s with
    | none => .error .notEnabled
    | some i => .ok (i, { s with choices := s.choices + 1 })

/-- The words of a driver program; the firmware is none. -/
def programWords (m : MainProgram) : List Word :=
  match m with
  | .driverProgram words => words
  | .application => []

/-- Put words into a program at an index: the words around them stay, missing ones are 0. -/
def placeWords (program : List Word) (at' : Nat) (ws : List Word) : List Word :=
  (program ++ List.replicate (at' - program.length) 0).take at' ++ ws
    ++ program.drop (at' + ws.length)

/-- A state whose next step runs the instruction of the words w0 and w1: an event becomes the next
word of the trace, a command becomes the driver program's command at PC with EV.MAIN as the next
event (log entry 7). -/
def placeInstruction (w0 w1 : Word) (s : State) : State :=
  if fieldU w0 = 8 then { s with trace := w0 :: s.trace }
  else
    { s with
      mainProgram := .driverProgram
        (placeWords (programWords s.mainProgram) s.pc (if wordLength w0 = 2 then [w0, w1] else [w0]))
      trace := Op.evMain.pattern :: s.trace }

end Sys2Proof.Machine
end

