-- ==== Sys2Proof/Machine/Step.lean ====
section
/-! DEFINITION. One step: take the next event and run its meaning. -/

namespace Sys2Proof.Machine

/-- One step of the model (10_state.md R30): the next event of the trace, or a free choice of an
enabled agent (log entry 4), run by exec. A command runs inside EV.MAIN (30_encoding.md R104). -/
def step (s : State) : Host.Outcome State Fault Refusal :=
  match fetch s with
  | .error f => .fault f
  | .ok (i, s') => exec i s'

/-- The state with an instruction, numbered as the opcode table numbers it, placed where the next
step takes it (log entry 7). -/
def State.withFetchWord (s : State) (nbits w : Nat) : State :=
  placeInstruction (tableWords nbits w).1 (tableWords nbits w).2 s

end Sys2Proof.Machine
end

