-- ==== Sys2Proof/Safety.lean ====
section
/-! DEFINITION. What statements are made of: the steps any agent may take (10_state.md R30), the
invariants that rule out states no run reaches, and infinite runs with the fairness the spec asks of
them (41_timer_counter.md R169, 44_sequencer.md R269, 60_exceptions.md R318; log entry 19). -/

namespace Sys2Proof.Machine

/-- A step of the spec's relation: some event, run by its meaning, gives the next state. -/
def Steps (s s' : State) : Prop :=
  ∃ i : Instr, i.isEvent = true ∧ exec i s = .next s'

/-- The clock select of every timer is off or a clock the timer accepts (10_state.md R39). -/
def clocksValid (s : State) : Prop :=
  ∀ t, clockValid s.params.t2ExternalClock t (s.timer t).cs = true

/-- The enables are the ones INIT programs for the mode, or clear: overflow interrupts only in Normal
mode, compare interrupts only in CTC mode (40_timer_driver.md R123, 41_timer_counter.md R162, R164). -/
def enablesMatchMode (s : State) : Prop :=
  ∀ t, ((s.timer t).toie = true → (s.timer t).wgm = .normal) ∧
    ((s.timer t).ocie = true → (s.timer t).wgm = .ctc)

/-- No timer runs before interrupts are enabled globally: only a successful START sets either
(40_timer_driver.md R125, 70_reset_and_hazards.md R345). -/
def runningImpliesEnabled (s : State) : Prop :=
  ∀ t, running t s = true → s.gie = true

/-- Counts and compare values have W(t) bits (10_state.md R35, R36; log entry 24). -/
def countsFit (s : State) : Prop :=
  ∀ t, (s.timer t).cnt.toNat < 2 ^ s.width t ∧ (s.timer t).ocr.toNat < 2 ^ s.width t

/-- What the firmware's locals say at each label (44_sequencer.md R250 to R263): the sample was above
WRAP_AT where the wrap is next, the maneuver is the schedule's where the indicators are next, it is
not Stop inside the window, and the last sample passed the test whose command is next. -/
def localsMatchLabel (s : State) : Prop :=
  match s.spc with
  | .rWrap => Config.wrapAt < s.d
  | .mLed => schedule s.d = some s.k
  | .mStopcmd => s.k = .stop
  | .mPzero => s.k ≠ .stop
  | .mFstart => s.k ≠ .stop
  | .mOn => s.k ≠ .stop
  | .mOncmd => s.k ≠ .stop ∧ onTest s.k s.p = true
  | .mOff => s.k ≠ .stop
  | .mOffcmd => s.k ≠ .stop ∧ offTest s.k s.p = true
  | .mFstop => s.k ≠ .stop
  | .mPend => s.k ≠ .stop
  | _ => True

/-- The rows and columns of 40_timer_driver.md R126: 32 and 128 on T2 only, the external clocks on T2
only where the parameter says so, every other clock everywhere. -/
def clockAccepted (t2ExternalClock : Bool) (t : TimerId) (c : Clock) : Prop :=
  (c = .div32 ∨ c = .div128 → t = .t2) ∧ (c = .extf ∨ c = .extr → t = .t2 → t2ExternalClock = true)

/-- The rows of 43_exti.md R201 for the four modes: line 2 accepts the two edges only. -/
def edgeAccepted (l : Line) (e : EdgeMode) : Prop :=
  l = .l2 → e = .fall ∨ e = .rise

/-- The sub-mode field an INIT checks is in range for its mode (40_timer_driver.md R120). -/
def subAccepted (m : WaveMode) (b c : Code) : Prop :=
  (m = .normal ∨ m = .ctc → b.toNat ≤ 3) ∧ (m = .pcpwm ∨ m = .fpwm → c.toNat ≤ 2)

/-- The registers a successful INIT leaves in a timer of w bits, with the callback cb
(40_timer_driver.md R121 to R123). -/
def configured (w : Nat) (m : WaveMode) (b c : Code) (cv ic : Half) (cb : Code) : TimerRegs where
  cnt := BitVec.ofNat 16 (ic.toNat % 2 ^ w)
  ocr := BitVec.ofNat 16 (cv.toNat % 2 ^ w)
  wgm := m
  com := if m = .normal ∨ m = .ctc then BitVec.ofNat 2 b.toNat
    else if c = 0 then 0 else if c = 1 then 2 else 3
  cs := .off
  toie := decide (m = .normal)
  ocie := decide (m = .ctc)
  tov := false
  ocf := false
  cb := cb

/-- A START command, of the driver or of the manager (40_timer_driver.md R125, 42_timer_manager.md
R183). -/
def isStart (i : Instr) : Prop := ∃ id a, i = .tmrStart id a ∨ i = .tmgrStart id a

/-- The firmware is at a label and the main context has a step (44_sequencer.md R235). -/
def FirmwareAt (l : Label) (s : State) : Prop :=
  s.refused = none ∧ s.mainProgram = .application ∧ s.spc = l

/-- The last motor command of an output log, if there is one. -/
def lastMotor (os : List OutEvent) : Option Motor :=
  os.foldl (fun m o => match o with
    | .carForward => some .forward
    | .carRotate => some .rotate
    | .carStop => some .stopped
    | .led _ _ => m) none

/-- The last level an output log gave an indicator, if it gave one. -/
def lastLed (i : Maneuver) (os : List OutEvent) : Option Bool :=
  os.foldl (fun v o => match o with
    | .carForward => v
    | .carRotate => v
    | .carStop => v
    | .led j w => if j = i then some w else v) none

/-- The levels are what the output log drove last (10_state.md R52; log entry 10). -/
def levelsMatchOut (s : State) : Prop :=
  (∀ m, lastMotor s.out = some m → s.motor = m) ∧
    ∀ i v, lastLed i s.out = some v → s.leds.get i = v

/-- A state with the compare-output fields and the edge modes cleared: what no rule reads
(10_state.md R38, 43_exti.md R207). -/
def eraseUnread (s : State) : State :=
  { s with
    timers :=
      { t0 := { s.timers.t0 with com := 0 }
        t1 := { s.timers.t1 with com := 0 }
        t2 := { s.timers.t2 with com := 0 } }
    lines :=
      { l0 := { s.lines.l0 with edge := .low }
        l1 := { s.lines.l1 with edge := .low }
        l2 := { s.lines.l2 with edge := .low } } }

/-- A function on the next state of an outcome. -/
def mapNext (f : State → State) (o : Host.Outcome State Fault Refusal) :
    Host.Outcome State Fault Refusal :=
  match o with
  | .next s => .next (f s)
  | .fault r => .fault r
  | .refused r => .refused r

/-- The state after n clock edges of a timer, one after the other (30_encoding.md R109, `ev.ticks`). -/
def ticks (id : Code) : Nat → State → Host.Outcome State Fault Refusal
  | 0, s => .next s
  | n + 1, s =>
    match exec (.evTick id) s with
    | .next s' => ticks id n s'
    | .fault r => .fault r
    | .refused r => .refused r

/-- The state after a list of events or commands, one after the other with no step in between. -/
def runList : List Instr → State → Host.Outcome State Fault Refusal
  | [], s => .next s
  | i :: rest, s =>
    match exec i s with
    | .next s' => runList rest s'
    | .fault r => .fault r
    | .refused r => .refused r

/-- An infinite run: event n leads from state n to state n + 1. -/
def IsRun (ev : Nat → Instr) (σ : Nat → State) : Prop :=
  ∀ n, (ev n).isEvent = true ∧ exec (ev n) (σ n) = .next (σ (n + 1))

/-- A timer that stays running keeps getting TICK steps (41_timer_counter.md R169). -/
def fairTicks (ev : Nat → Instr) (σ : Nat → State) : Prop :=
  ∀ t n, (∀ m, n ≤ m → running t (σ m) = true) → ∃ m, n ≤ m ∧ ev m = .evTick (timerCode t)

/-- A source that stays enabled for dispatch is dispatched (60_exceptions.md R318). -/
def fairDispatch (ev : Nat → Instr) (σ : Nat → State) : Prop :=
  ∀ src n, (∀ m, n ≤ m → irqEnabled src (σ m) = true) → ∃ m, n ≤ m ∧ ev m = .evIrq (sourceCode src)

/-- The main context keeps stepping while it has steps (44_sequencer.md R269). -/
def fairMain (ev : Nat → Instr) (σ : Nat → State) : Prop :=
  ∀ n, (∀ m, n ≤ m → mainEnabled (σ m) = true) → ∃ m, n ≤ m ∧ ev m = .evMain

/-- A fair run. No fairness is asked of the environment (43_exti.md R207, 44_sequencer.md R265). -/
def FairRun (ev : Nat → Instr) (σ : Nat → State) : Prop :=
  IsRun ev σ ∧ fairTicks ev σ ∧ fairDispatch ev σ ∧ fairMain ev σ

end Sys2Proof.Machine
end

