-- ==== Sys2Proof/Certificates/Slice0/Obligations.lean ====
section
/-! DEFINITION. The statements for the provers. Each docstring names the rule it formalises. A next
state written with `with` says its own frame: every field it does not name is as before. -/

open Sys2Proof Sys2Proof.Machine

/-! ### Encoding -/

/-- 30_encoding.md R102, R110: decoding the words of a well-formed instruction, whatever words follow,
gives the instruction back, with every operand at every value. -/
def Obligations.DecodeOfEncodeIsTheInstruction : Prop :=
  ∀ (i : Instr) (rest : List Word), i.wellFormed = true → decodeWords (encode i ++ rest) = .ok i

/-- 30_encoding.md R102, R105: a word has one meaning: encoding what was decoded gives the word back,
with its extension word where the instruction has one, and what was decoded is well-formed. -/
def Obligations.EncodeOfDecodeIsTheWords : Prop :=
  ∀ (w0 x : Word) (i : Instr), decode w0 (some x) = .ok i →
    i.wellFormed = true ∧ encode i = (if i.length = 2 then [w0, x] else [w0])

/-- 30_encoding.md R105: with a second word at hand, a word decodes exactly when it matches a row
under the row's mask and meets the row's range or extension constraint. -/
def Obligations.DecodesExactlyTheTableRows : Prop :=
  ∀ (w0 x : Word), (∃ i, decode w0 (some x) = .ok i) ↔
    ∃ o : Op, w0 &&& o.mask = o.pattern ∧
      (o = .evTick ∨ o = .evExtrig → (w0.toNat / 2 ^ 20) % 16 ≤ 2) ∧
      (o = .evIrq → (w0.toNat / 2 ^ 16) % 16 ≤ 8) ∧
      (o = .tmrSetval ∨ o = .tmgrSetval → x.toNat / 2 ^ 16 = 0)

/-- 30_encoding.md R102, R110 and the decode vectors of 95_test_vectors.md: sample words. -/
def Obligations.SampleWordsDecode : Prop :=
  decode 0x20000018#32 (some 6) = .ok (.tmgrInit true 0 0 0 0 1 0 6) ∧
  decode 0x10221008#32 (some 0x008001FF#32) = .ok (.tmrInit true 2 2 1 0 0 0x80 0x1FF) ∧
  decode 0x12A00000#32 none = .ok (.tmrStart 10 0) ∧
  decode 0x30030038#32 none = .ok (.extiInit true 0 3 3) ∧
  decode 0x83010000#32 none = .ok (.evButton true) ∧
  decode 0x10000000#32 none = .error .truncatedCommand ∧
  decode 0x14000000#32 (some 0x00010000#32) = .error .reservedField ∧
  decode 0x80300000#32 none = .error .eventRange

/-! ### The Timer Peripheral Driver -/

/-- 40_timer_driver.md R121, R123: TMR.INIT configures the timer and leaves its callback, or returns
NOK for a null configuration, identifier, mode or sub-mode and changes nothing else. -/
def Obligations.TmrInitConfiguresTheTimer : Prop :=
  (∀ (s : State) (t : TimerId) (m : WaveMode) (b c h : Code) (cv ic : Half), subAccepted m b c →
    exec (.tmrInit true (timerCode t) (modeCode m) b c h cv ic) s =
      .next { s.setTimer t (configured (s.width t) m b c cv ic (s.timer t).cb) with res := .ok }) ∧
  ∀ (s : State) (p : Bool) (id a b c h : Code) (cv ic : Half),
    (p = false ∨ 2 < id.toNat ∨ 3 < a.toNat ∨ ∃ m, a = modeCode m ∧ ¬ subAccepted m b c) →
    exec (.tmrInit p id a b c h cv ic) s = .next { s with res := .nok }

/-- 40_timer_driver.md R124: TMR.SETCB registers the callback; a null callback gives NULL_PTR and is
checked first, then an invalid identifier gives NOK. -/
def Obligations.TmrSetcbRegistersTheCallback : Prop :=
  ∀ (s : State) (id h : Code),
    (h = 0 → exec (.tmrSetcb id h) s = .next { s with res := .nullPtr }) ∧
    (h ≠ 0 → 2 < id.toNat → exec (.tmrSetcb id h) s = .next { s with res := .nok }) ∧
    (h ≠ 0 → ∀ t, id = timerCode t →
      exec (.tmrSetcb id h) s =
        .next { s.setTimer t { s.timer t with cb := h } with res := .ok })

/-- 40_timer_driver.md R125, R126, 42_timer_manager.md R183: START, of the driver and of the manager,
selects an accepted clock and enables interrupts globally; an identifier, clock code or clock that is
not accepted gives NOK and sets nothing else. -/
def Obligations.StartSelectsTheClock : Prop :=
  (∀ (s : State) (t : TimerId) (c : Clock), clockAccepted s.params.t2ExternalClock t c →
    exec (.tmrStart (timerCode t) (clockCode c)) s =
      .next { s.setTimer t { s.timer t with cs := c } with gie := true, res := .ok } ∧
    exec (.tmgrStart (timerCode t) (clockCode c)) s =
      .next { s.setTimer t { s.timer t with cs := c } with gie := true, res := .ok }) ∧
  ∀ (s : State) (id a : Code),
    (2 < id.toNat ∨ 9 < a.toNat ∨ ∃ t c, id = timerCode t ∧ a = clockCode c ∧
      ¬ clockAccepted s.params.t2ExternalClock t c) →
    exec (.tmrStart id a) s = .next { s with res := .nok } ∧
    exec (.tmgrStart id a) s = .next { s with res := .nok }

/-- 40_timer_driver.md R127, 42_timer_manager.md R184: STOP, of the driver and of the manager, clears
the clock select and nothing else, or returns NOK. -/
def Obligations.StopClearsTheClockSelect : Prop :=
  (∀ (s : State) (t : TimerId),
    exec (.tmrStop (timerCode t)) s =
      .next { s.setTimer t { s.timer t with cs := .off } with res := .ok } ∧
    exec (.tmgrStop (timerCode t)) s =
      .next { s.setTimer t { s.timer t with cs := .off } with res := .ok }) ∧
  ∀ (s : State) (id : Code), 2 < id.toNat →
    exec (.tmrStop id) s = .next { s with res := .nok } ∧
    exec (.tmgrStop id) s = .next { s with res := .nok }

/-- 40_timer_driver.md R129, 42_timer_manager.md R185: SETVAL, of the driver and of the manager,
writes the low W(t) bits into the count and nothing else, or returns NOK. -/
def Obligations.SetvalWritesTheCount : Prop :=
  (∀ (s : State) (t : TimerId) (v : Half),
    exec (.tmrSetval (timerCode t) v) s = .next
      { s.setTimer t { s.timer t with cnt := BitVec.ofNat 16 (v.toNat % 2 ^ s.width t) }
        with res := .ok } ∧
    exec (.tmgrSetval (timerCode t) v) s = .next
      { s.setTimer t { s.timer t with cnt := BitVec.ofNat 16 (v.toNat % 2 ^ s.width t) }
        with res := .ok }) ∧
  ∀ (s : State) (id : Code) (v : Half), 2 < id.toNat →
    exec (.tmrSetval id v) s = .next { s with res := .nok } ∧
    exec (.tmgrSetval id v) s = .next { s with res := .nok }

/-- 40_timer_driver.md R130: TMR.RESET clears every register of the timer but the callback, or returns
NOK; I is kept. -/
def Obligations.TmrResetClearsTheTimer : Prop :=
  (∀ (s : State) (t : TimerId), exec (.tmrReset (timerCode t)) s = .next
    { s.setTimer t
        { cnt := 0, ocr := 0, wgm := .normal, com := 0, cs := .off
          toie := false, ocie := false, tov := false, ocf := false, cb := (s.timer t).cb }
      with res := .ok }) ∧
  ∀ (s : State) (id : Code), 2 < id.toNat →
    exec (.tmrReset id) s = .next { s with res := .nok }

/-- 40_timer_driver.md R131: TMR.RDCNT copies the zero-extended count into VAL, or returns NOK and
keeps VAL. -/
def Obligations.TmrRdcntReadsTheCount : Prop :=
  (∀ (s : State) (t : TimerId), exec (.tmrRdcnt (timerCode t)) s =
    .next { s with val := BitVec.ofNat 16 (s.timer t).cnt.toNat, res := .ok }) ∧
  ∀ (s : State) (id : Code), 2 < id.toNat →
    exec (.tmrRdcnt id) s = .next { s with res := .nok }

/-- 40_timer_driver.md R132, and for the other units 60_exceptions.md R302: a command that writes NOK
or NULL_PTR to RES changes nothing except RES. -/
def Obligations.FailedCommandChangesOnlyRes : Prop :=
  ∀ (i : Instr) (s s' : State), i.isEvent = false → exec i s = .next s' → s'.res ≠ .ok →
    s' = { s with res := s'.res }

/-- 40_timer_driver.md R134: SETVAL then RDCNT reads the value modulo 2^W(t), and both return OK. -/
def Obligations.SetvalThenRdcntReadsBack : Prop :=
  ∀ (s : State) (t : TimerId) (v : Half),
    ∃ s1 s2, exec (.tmrSetval (timerCode t) v) s = .next s1 ∧ s1.res = .ok ∧
      exec (.tmrRdcnt (timerCode t)) s1 = .next s2 ∧ s2.res = .ok ∧
      s2.val.toNat = v.toNat % 2 ^ s.width t

/-- 40_timer_driver.md R128: a START that returns OK, then STOP, leaves the clock select off, the count
as before and I set. -/
def Obligations.StartThenStopKeepsTheCount : Prop :=
  ∀ (s s1 : State) (t : TimerId) (a : Code),
    exec (.tmrStart (timerCode t) a) s = .next s1 → s1.res = .ok →
    ∃ s2, exec (.tmrStop (timerCode t)) s1 = .next s2 ∧ (s2.timer t).cs = .off ∧
      (s2.timer t).cnt = (s.timer t).cnt ∧ s2.gie = true

/-- 10_state.md R43 (log entry 18): the lifecycle read off the registers runs as the source's state
machine: INIT leads to CONFIGURED-STOPPED, START with a clock to RUNNING, then STOP back to
CONFIGURED-STOPPED, RESET to UNCONFIGURED. -/
def Obligations.LifecycleFollowsTheCommands : Prop :=
  ∀ (s : State) (t : TimerId) (m : WaveMode) (b c h : Code) (cv ic : Half) (k : Clock),
    subAccepted m b c → clockAccepted s.params.t2ExternalClock t k → k ≠ .off →
    ∃ s1 s2 s3 s4, exec (.tmrInit true (timerCode t) (modeCode m) b c h cv ic) s = .next s1 ∧
      lifecycle t s1 = .configuredStopped ∧
      exec (.tmrStart (timerCode t) (clockCode k)) s1 = .next s2 ∧ lifecycle t s2 = .running ∧
      exec (.tmrStop (timerCode t)) s2 = .next s3 ∧ lifecycle t s3 = .configuredStopped ∧
      exec (.tmrReset (timerCode t)) s3 = .next s4 ∧ lifecycle t s4 = .unconfigured

/-! ### The Timer Manager -/

/-- 42_timer_manager.md R181: TMGR.INIT configures the timer and registers a callback that is not
null; a null configuration gives NULL_PTR, an identifier, mode or sub-mode out of range NOK. -/
def Obligations.TmgrInitConfiguresAndRegisters : Prop :=
  (∀ (s : State) (t : TimerId) (m : WaveMode) (b c h : Code) (cv ic : Half), subAccepted m b c →
    exec (.tmgrInit true (timerCode t) (modeCode m) b c h cv ic) s =
      .next { s.setTimer t (configured (s.width t) m b c cv ic (if h = 0 then (s.timer t).cb else h))
        with res := .ok }) ∧
  (∀ (s : State) (id a b c h : Code) (cv ic : Half),
    exec (.tmgrInit false id a b c h cv ic) s = .next { s with res := .nullPtr }) ∧
  ∀ (s : State) (id a b c h : Code) (cv ic : Half),
    (2 < id.toNat ∨ 3 < a.toNat ∨ ∃ m, a = modeCode m ∧ ¬ subAccepted m b c) →
    exec (.tmgrInit true id a b c h cv ic) s = .next { s with res := .nok }

/-- 70_reset_and_hazards.md R344: the three init commands of the boot, for two different timers, give
the same state in every order. -/
def Obligations.BootInitsCommute : Prop :=
  ∀ (s : State) (f w : TimerId) (l : Line) (e : EdgeMode) (pf pw : Half), f ≠ w → edgeAccepted l e →
    let a : Instr := .tmgrInit true (timerCode f) 0 0 0 1 0 pf
    let b : Instr := .tmgrInit true (timerCode w) 0 0 0 2 0 pw
    let c : Instr := .extiInit true (lineCode l) (edgeCode e) 3
    ∃ s', runList [a, b, c] s = .next s' ∧ runList [a, c, b] s = .next s' ∧
      runList [b, a, c] s = .next s' ∧ runList [b, c, a] s = .next s' ∧
      runList [c, a, b] s = .next s' ∧ runList [c, b, a] s = .next s'

/-! ### The External Interrupt Manager -/

/-- 43_exti.md R202, R201: EXTI.INIT programs the edge and registers the callback and leaves EN; an
absent configuration or callback gives NULL_PTR, then a line or edge not accepted gives NOK. -/
def Obligations.ExtiInitProgramsTheLine : Prop :=
  (∀ (s : State) (l : Line) (e : EdgeMode) (h : Code), h ≠ 0 → edgeAccepted l e →
    exec (.extiInit true (lineCode l) (edgeCode e) h) s =
      .next { s.setLine l { s.line l with edge := e, xcb := h } with res := .ok }) ∧
  (∀ (s : State) (p : Bool) (id a h : Code), (p = false ∨ h = 0) →
    exec (.extiInit p id a h) s = .next { s with res := .nullPtr }) ∧
  ∀ (s : State) (id a h : Code), h ≠ 0 →
    (2 < id.toNat ∨ 3 < a.toNat ∨ ∃ l e, id = lineCode l ∧ a = edgeCode e ∧ ¬ edgeAccepted l e) →
    exec (.extiInit true id a h) s = .next { s with res := .nok }

/-- 43_exti.md R203, R204: EXTI.ENABLE and EXTI.DISABLE write EN and nothing else, and return NOK for
an invalid line. -/
def Obligations.ExtiEnableAndDisableGateTheLine : Prop :=
  (∀ (s : State) (l : Line),
    exec (.extiEnable (lineCode l)) s =
      .next { s.setLine l { s.line l with en := true } with res := .ok } ∧
    exec (.extiDisable (lineCode l)) s =
      .next { s.setLine l { s.line l with en := false } with res := .ok }) ∧
  ∀ (s : State) (id : Code), 2 < id.toNat →
    exec (.extiEnable id) s = .next { s with res := .nok } ∧
    exec (.extiDisable id) s = .next { s with res := .nok }

/-- 43_exti.md R205: EXTI.SETCB replaces the callback; null first (NULL_PTR), then the line (NOK). -/
def Obligations.ExtiSetcbReplacesTheCallback : Prop :=
  ∀ (s : State) (id h : Code),
    (h = 0 → exec (.extiSetcb id h) s = .next { s with res := .nullPtr }) ∧
    (h ≠ 0 → 2 < id.toNat → exec (.extiSetcb id h) s = .next { s with res := .nok }) ∧
    (h ≠ 0 → ∀ l, id = lineCode l →
      exec (.extiSetcb id h) s =
        .next { s.setLine l { s.line l with xcb := h } with res := .ok })

/-- 43_exti.md R206, 44_sequencer.md R265: the environment's events, enabled in every state that is
not refused: an edge sets INTF whatever EN is, the button writes BTN, and nothing else changes. -/
def Obligations.EnvironmentEvents : Prop :=
  ∀ (s : State), s.refused = none →
    (∀ l, exec (.evExtrig (lineCode l)) s = .next (s.setLine l { s.line l with intf := true })) ∧
    ∀ v, exec (.evButton v) s = .next { s with btn := v }

/-- 70_reset_and_hazards.md R353: an edge latched while the line is disabled is dispatched after the
ENABLE and runs Abort at once. -/
def Obligations.LatchedEdgeAbortsAfterEnable : Prop :=
  ∀ (s : State) (l : Line), s.refused = none → s.gie = true → (s.line l).en = false →
    (s.line l).xcb = abortHandle →
    ∃ s', runList [.evExtrig (lineCode l), .extiEnable (lineCode l), .evIrq (sourceCode (.ext l))] s
        = .next s' ∧
      s'.runState = .stopped ∧ s'.pwmTickCount = 0 ∧ s'.delayTickCount = 0 ∧
      (s'.line l).intf = false ∧ (s'.line l).en = true

/-! ### Counting -/

/-- 41_timer_counter.md R161, R162: a Normal-mode edge counts up modulo 2^W(t), sets TOV at the wrap
and OCF when the old count equals OCR; nothing else changes. -/
def Obligations.NormalEdgeCountsAndFlags : Prop :=
  ∀ (s : State) (t : TimerId), s.refused = none → (s.timer t).cs ≠ .off → (s.timer t).wgm = .normal →
    exec (.evTick (timerCode t)) s = .next (s.setTimer t { s.timer t with
      cnt := if (s.timer t).cnt.toNat + 1 = 2 ^ s.width t then 0 else (s.timer t).cnt + 1
      tov := (s.timer t).tov || decide ((s.timer t).cnt.toNat + 1 = 2 ^ s.width t)
      ocf := (s.timer t).ocf || decide ((s.timer t).cnt = (s.timer t).ocr) })

/-- 41_timer_counter.md R163, R164: a CTC-mode edge clears the count at OCR or MAX, else counts up,
sets OCF at OCR and TOV at MAX; nothing else changes. -/
def Obligations.CtcEdgeCountsAndFlags : Prop :=
  ∀ (s : State) (t : TimerId), s.refused = none → (s.timer t).cs ≠ .off → (s.timer t).wgm = .ctc →
    exec (.evTick (timerCode t)) s = .next (s.setTimer t { s.timer t with
      cnt := if (s.timer t).cnt = (s.timer t).ocr ∨ (s.timer t).cnt.toNat + 1 = 2 ^ s.width t then 0
        else (s.timer t).cnt + 1
      tov := (s.timer t).tov || decide ((s.timer t).cnt.toNat + 1 = 2 ^ s.width t)
      ocf := (s.timer t).ocf || decide ((s.timer t).cnt = (s.timer t).ocr) })

/-- 41_timer_counter.md R165: an edge of a running timer in a PWM mode is refused and changes nothing
else. -/
def Obligations.PwmEdgeIsRefused : Prop :=
  ∀ (s : State) (t : TimerId), s.refused = none → (s.timer t).cs ≠ .off →
    ((s.timer t).wgm = .pcpwm ∨ (s.timer t).wgm = .fpwm) →
    exec (.evTick (timerCode t)) s = .next { s with refused := some .pwmCountingNotModelled }

/-- 41_timer_counter.md R167: an edge writes only the count and the two flags of its timer and REFUSED,
and clears no flag. -/
def Obligations.EdgeWritesOnlyItsTimer : Prop :=
  ∀ (s s' : State) (id : Code), exec (.evTick id) s = .next s' →
    ∃ t : TimerId, id = timerCode t ∧ (s.timer t).cs ≠ .off ∧
      (∃ r : TimerRegs,
        s' = { s.setTimer t r with refused := s'.refused } ∧
        r = { s.timer t with cnt := r.cnt, tov := r.tov, ocf := r.ocf } ∧
        ((s.timer t).tov = true → r.tov = true) ∧ ((s.timer t).ocf = true → r.ocf = true))

/-- 41_timer_counter.md R168: from a count v of W(t) bits (countsFit) without a pending overflow, a
running Normal-mode timer sets TOV first at edge MAX(t) + 1 - v. -/
def Obligations.OverflowPeriod : Prop :=
  ∀ (s : State) (t : TimerId), s.refused = none → (s.timer t).cs ≠ .off → (s.timer t).wgm = .normal →
    (s.timer t).tov = false → (s.timer t).cnt.toNat < 2 ^ s.width t →
    (∀ n, (s.timer t).cnt.toNat + n < 2 ^ s.width t →
      ∃ s', ticks (timerCode t) n s = .next s' ∧ (s'.timer t).tov = false ∧
        (s'.timer t).cnt.toNat = (s.timer t).cnt.toNat + n) ∧
    ∃ s', ticks (timerCode t) (2 ^ s.width t - (s.timer t).cnt.toNat) s = .next s' ∧
      (s'.timer t).tov = true ∧ (s'.timer t).cnt = 0

/-- 41_timer_counter.md R163: the compare period is OCR(t) + 1 edges: from count 0 without a pending
match, a running CTC-mode timer whose OCR has W(t) bits (countsFit) sets OCF first, and is back at 0, at edge OCR(t) + 1. -/
def Obligations.ComparePeriod : Prop :=
  ∀ (s : State) (t : TimerId), s.refused = none → (s.timer t).cs ≠ .off → (s.timer t).wgm = .ctc →
    (s.timer t).ocf = false → (s.timer t).cnt = 0 → (s.timer t).ocr.toNat < 2 ^ s.width t →
    (∀ n, n ≤ (s.timer t).ocr.toNat →
      ∃ s', ticks (timerCode t) n s = .next s' ∧ (s'.timer t).ocf = false ∧
        (s'.timer t).cnt.toNat = n) ∧
    ∃ s', ticks (timerCode t) ((s.timer t).ocr.toNat + 1) s = .next s' ∧
      (s'.timer t).ocf = true ∧ (s'.timer t).cnt = 0

/-! ### Interrupts -/

/-- 60_exceptions.md R311: the dispatch of a source is enabled exactly when I, its flag and its enable
are 1 and nothing is refused. -/
def Obligations.DispatchCondition : Prop :=
  ∀ (s : State),
    (∀ l, (∃ s', exec (.evIrq (sourceCode (.ext l))) s = .next s') ↔
      s.gie = true ∧ (s.line l).intf = true ∧ (s.line l).en = true ∧ s.refused = none) ∧
    (∀ t, (∃ s', exec (.evIrq (sourceCode (.ovf t))) s = .next s') ↔
      s.gie = true ∧ (s.timer t).tov = true ∧ (s.timer t).toie = true ∧ s.refused = none) ∧
    ∀ t, (∃ s', exec (.evIrq (sourceCode (.comp t))) s = .next s') ↔
      s.gie = true ∧ (s.timer t).ocf = true ∧ (s.timer t).ocie = true ∧ s.refused = none

/-- 60_exceptions.md R313, R314 and 44_sequencer.md R230: with a null callback the handler clears the
flag and does nothing else. -/
def Obligations.NullCallbackIsAbsorbed : Prop :=
  ∀ (s : State), s.gie = true → s.refused = none →
    (∀ l, (s.line l).intf = true → (s.line l).en = true → (s.line l).xcb = 0 →
      exec (.evIrq (sourceCode (.ext l))) s = .next (s.setLine l { s.line l with intf := false })) ∧
    (∀ t, (s.timer t).tov = true → (s.timer t).toie = true → (s.timer t).cb = 0 →
      exec (.evIrq (sourceCode (.ovf t))) s = .next (s.setTimer t { s.timer t with tov := false })) ∧
    ∀ t, (s.timer t).ocf = true → (s.timer t).ocie = true → (s.timer t).cb = 0 →
      exec (.evIrq (sourceCode (.comp t))) s = .next (s.setTimer t { s.timer t with ocf := false })

/-- 44_sequencer.md R231, R232: after the flag is cleared, FastTick and SlowTick count modulo 256 and
re-arm their own timer, whichever source invoked them. -/
def Obligations.TickCallbacksCountAndRearm : Prop :=
  ∀ (s : State) (src : IrqSource), irqEnabled src s = true →
    (irqSlot src s = fastHandle →
      exec (.evIrq (sourceCode src)) s = .next
        { (clearFlag src s).setTimer s.params.fastTimer
            { (clearFlag src s).timer s.params.fastTimer with
              cnt := BitVec.ofNat 16 (s.params.preloadFast.toNat % 2 ^ s.width s.params.fastTimer) }
          with pwmTickCount := BitVec.ofNat 8 ((s.pwmTickCount.toNat + 1) % 256) }) ∧
    (irqSlot src s = slowHandle →
      exec (.evIrq (sourceCode src)) s = .next
        { (clearFlag src s).setTimer s.params.slowTimer
            { (clearFlag src s).timer s.params.slowTimer with
              cnt := BitVec.ofNat 16 (s.params.preloadSlow.toNat % 2 ^ s.width s.params.slowTimer) }
          with delayTickCount := BitVec.ofNat 8 ((s.delayTickCount.toNat + 1) % 256) })

/-- 44_sequencer.md R233: Abort zeroes both counters and stops, and does nothing else but the clearing
of the flag. -/
def Obligations.AbortZeroesAndStops : Prop :=
  ∀ (s : State) (src : IrqSource), irqEnabled src s = true → irqSlot src s = abortHandle →
    exec (.evIrq (sourceCode src)) s = .next
      { clearFlag src s with pwmTickCount := 0, delayTickCount := 0, runState := .stopped }

/-- 44_sequencer.md R230, 60_exceptions.md R306: invoking a handle from 4 up is refused and changes
nothing else; the flag stays set. -/
def Obligations.OpaqueCallbackIsRefused : Prop :=
  ∀ (s : State) (src : IrqSource), irqEnabled src s = true → 4 ≤ (irqSlot src s).toNat →
    exec (.evIrq (sourceCode src)) s = .next { s with refused := some .opaqueCallback }

/-- 60_exceptions.md R316, R317: a dispatch that happens leaves PC, SPC, the locals, RES, VAL, I, every
enable, every clock, mode and callback slot, the outputs and the inputs as they were. -/
def Obligations.DispatchFrame : Prop :=
  ∀ (s s' : State) (a : Code), exec (.evIrq a) s = .next s' →
    s' = { s with
      timers := s'.timers, lines := s'.lines, pwmTickCount := s'.pwmTickCount
      delayTickCount := s'.delayTickCount, runState := s'.runState, refused := s'.refused } ∧
    (∀ t, s'.timer t = { s.timer t with
      cnt := (s'.timer t).cnt, tov := (s'.timer t).tov, ocf := (s'.timer t).ocf }) ∧
    ∀ l, s'.line l = { s.line l with intf := (s'.line l).intf }

/-- 60_exceptions.md R315: when both flags of a timer are pending and enabled, the two dispatches may
happen in either order, and the counters, the flags and the counts end the same. -/
def Obligations.BothFlagsDispatchInEitherOrder : Prop :=
  ∀ (s : State) (t : TimerId), s.gie = true → s.refused = none → (s.timer t).cb.toNat < 4 →
    (s.timer t).tov = true → (s.timer t).toie = true →
    (s.timer t).ocf = true → (s.timer t).ocie = true →
    ∃ s', runList [.evIrq (sourceCode (.ovf t)), .evIrq (sourceCode (.comp t))] s = .next s' ∧
      runList [.evIrq (sourceCode (.comp t)), .evIrq (sourceCode (.ovf t))] s = .next s' ∧
      (s'.timer t).tov = false ∧ (s'.timer t).ocf = false

/-! ### The environment and the main context -/

/-- 30_encoding.md R104: in a driver program EV.MAIN executes the command at PC and advances PC by its
length. -/
def Obligations.MainExecutesTheCommandAtPc : Prop :=
  ∀ (s : State) (words : List Word) (w0 : Word) (i : Instr), s.refused = none →
    s.mainProgram = .driverProgram words → words[s.pc]? = some w0 →
    decode w0 words[s.pc + 1]? = .ok i → i.isEvent = false →
    ∃ s', exec i s = .next s' ∧ exec .evMain s = .next { s' with pc := s.pc + i.length }

/-- 60_exceptions.md R306 and log entry 11: EV.MAIN at an Invalid word, a truncated command or an
event is refused with the reason named, and changes nothing else. -/
def Obligations.MainRefusesBadWords : Prop :=
  ∀ (s : State) (words : List Word) (w0 : Word), s.refused = none →
    s.mainProgram = .driverProgram words → words[s.pc]? = some w0 →
    (∀ e, decode w0 words[s.pc + 1]? = .error e → e ≠ .truncatedCommand →
      exec .evMain s = .next { s with refused := some .invalidEncoding }) ∧
    (decode w0 words[s.pc + 1]? = .error .truncatedCommand →
      exec .evMain s = .next { s with refused := some .truncatedCommand }) ∧
    ∀ i, decode w0 words[s.pc + 1]? = .ok i → i.isEvent = true →
      exec .evMain s = .next { s with refused := some .eventInProgram }

/-- 30_encoding.md R103, R104, 41_timer_counter.md R160 and 10_state.md R33: the events that are not
steps: a tick of a stopped timer, a dispatch whose source is not pending and enabled, and EV.MAIN at
the end of a driver program. -/
def Obligations.NotEnabledEventsAreNoSteps : Prop :=
  ∀ (s : State),
    (∀ t, (s.timer t).cs = .off → exec (.evTick (timerCode t)) s = .fault .notEnabled) ∧
    (∀ src, (s.gie = false ∨ irqFlag src s = false ∨ irqEnable src s = false) →
      exec (.evIrq (sourceCode src)) s = .fault .notEnabled) ∧
    ∀ words, s.mainProgram = .driverProgram words → s.pc = words.length →
      exec .evMain s = .fault .notEnabled

/-! ### The sequencer firmware -/

/-- 44_sequencer.md R236 to R238: the boot micro-steps configure the fast timer, the slow timer and the
abort line. -/
def Obligations.BootMicroSteps : Prop :=
  ∀ (s : State),
    (FirmwareAt .bFast s → exec .evMain s = .next
      { s.setTimer s.params.fastTimer
          (configured (s.width s.params.fastTimer) .normal 0 0 0 s.params.preloadFast fastHandle)
        with res := .ok, spc := .bSlow }) ∧
    (FirmwareAt .bSlow s → exec .evMain s = .next
      { s.setTimer s.params.slowTimer
          (configured (s.width s.params.slowTimer) .normal 0 0 0 s.params.preloadSlow slowHandle)
        with res := .ok, spc := .bExti }) ∧
    (FirmwareAt .bExti s → edgeAccepted s.params.abortLine s.params.abortEdge →
      exec .evMain s = .next
        { s.setLine s.params.abortLine
            { s.line s.params.abortLine with edge := s.params.abortEdge, xcb := abortHandle }
          with res := .ok, spc := .loop }) ∧
    (FirmwareAt .bExti s → ¬ edgeAccepted s.params.abortLine s.params.abortEdge →
      exec .evMain s = .next { s with res := .nok, spc := .loop })

/-- 44_sequencer.md R239 to R246: the loop head and the STOPPED path. The output events are appended to
OUT; that they also drive the motor and indicator levels is the model's choice, log entry 10. -/
def Obligations.StoppedMicroSteps : Prop :=
  ∀ (s : State),
    (FirmwareAt .loop s → exec .evMain s =
      .next { s with spc := if s.runState = .stopped then .sExtiDis else .rExtiEn }) ∧
    (FirmwareAt .sExtiDis s → exec .evMain s = .next
      { s.setLine s.params.abortLine { s.line s.params.abortLine with en := false }
        with res := .ok, spc := .sTstop }) ∧
    (FirmwareAt .sTstop s → exec .evMain s = .next
      { s.setTimer s.params.slowTimer { s.timer s.params.slowTimer with cs := .off }
        with res := .ok, spc := .sCarstop }) ∧
    (FirmwareAt .sCarstop s → exec .evMain s =
      .next { s with out := s.out ++ [.carStop], motor := .stopped, spc := .sLed }) ∧
    (FirmwareAt .sLed s → exec .evMain s = .next
      { s with
        out := s.out ++ [.led .stop true], leds := { s.leds with stop := true }, spc := .sPoll }) ∧
    (FirmwareAt .sPoll s → exec .evMain s =
      .next { s with spc := if s.btn = true then .sRun else .loop }) ∧
    (FirmwareAt .sRun s → exec .evMain s =
      .next { s with runState := .running, spc := .sZero }) ∧
    (FirmwareAt .sZero s → exec .evMain s =
      .next { s with delayTickCount := 0, spc := .loop })

/-- 44_sequencer.md R248 to R250 and R252: the RUNNING path up to the sample, and the wrap to WRAP_TO,
which is 2 as R252 gives it. -/
def Obligations.RunningMicroSteps : Prop :=
  State.reset.params.wrapTo = 2 ∧ ∀ (s : State),
    (FirmwareAt .rExtiEn s → exec .evMain s = .next
      { s.setLine s.params.abortLine { s.line s.params.abortLine with en := true }
        with res := .ok, spc := .rTstart }) ∧
    (FirmwareAt .rTstart s →
      clockAccepted s.params.t2ExternalClock s.params.slowTimer s.params.clockSlow →
      exec .evMain s = .next
        { s.setTimer s.params.slowTimer { s.timer s.params.slowTimer with cs := s.params.clockSlow }
          with gie := true, res := .ok, spc := .rSample }) ∧
    (FirmwareAt .rTstart s →
      ¬ clockAccepted s.params.t2ExternalClock s.params.slowTimer s.params.clockSlow →
      exec .evMain s = .next { s with res := .nok, spc := .rSample }) ∧
    (FirmwareAt .rSample s → exec .evMain s =
      .next { s with d := s.delayTickCount, spc := .rDispatch }) ∧
    (FirmwareAt .rWrap s → exec .evMain s =
      .next { s with delayTickCount := s.params.wrapTo, spc := .loop })

/-- 44_sequencer.md R247, R251: what R_DISPATCH does with a sample, interval by interval. -/
def Obligations.DispatchFollowsTheSchedule : Prop :=
  ∀ (s : State), FirmwareAt .rDispatch s →
    (s.d.toNat ≤ 2 → exec .evMain s = .next { s with spc := .loop }) ∧
    (18 < s.d.toNat → exec .evMain s = .next { s with spc := .rWrap }) ∧
    (2 < s.d.toNat → s.d.toNat ≤ 8 →
      exec .evMain s = .next { s with k := .longSide, spc := .mLed }) ∧
    (s.d.toNat = 9 ∨ s.d.toNat = 11 ∨ s.d.toNat = 16 ∨ s.d.toNat = 18 →
      exec .evMain s = .next { s with k := .stop, spc := .mLed }) ∧
    (s.d.toNat = 10 ∨ s.d.toNat = 17 →
      exec .evMain s = .next { s with k := .rotate, spc := .mLed }) ∧
    (11 < s.d.toNat → s.d.toNat ≤ 15 →
      exec .evMain s = .next { s with k := .shortSide, spc := .mLed })

/-- 44_sequencer.md R254 to R257, R262 and R263: the indicators one-hot in the source's order, the Stop
maneuver, and the opening and closing of the window. The output events are appended to OUT; that they
also drive the motor and indicator levels is the model's choice, log entry 10. -/
def Obligations.ManeuverMicroSteps : Prop :=
  ∀ (s : State),
    (FirmwareAt .mLed s → exec .evMain s = .next
      { s with
        out := s.out ++ [.led .shortSide (s.k == .shortSide), .led .longSide (s.k == .longSide),
          .led .rotate (s.k == .rotate), .led .stop (s.k == .stop)]
        leds := { shortSide := s.k == .shortSide, longSide := s.k == .longSide,
                  rotate := s.k == .rotate, stop := s.k == .stop }
        spc := if s.k = .stop then .mStopcmd else .mPzero }) ∧
    (FirmwareAt .mStopcmd s → exec .evMain s =
      .next { s with out := s.out ++ [.carStop], motor := .stopped, spc := .loop }) ∧
    (FirmwareAt .mPzero s → exec .evMain s = .next { s with pwmTickCount := 0, spc := .mFstart }) ∧
    (FirmwareAt .mFstart s →
      clockAccepted s.params.t2ExternalClock s.params.fastTimer s.params.clockFast →
      exec .evMain s = .next
        { s.setTimer s.params.fastTimer { s.timer s.params.fastTimer with cs := s.params.clockFast }
          with gie := true, res := .ok, spc := .mOn }) ∧
    (FirmwareAt .mFstart s →
      ¬ clockAccepted s.params.t2ExternalClock s.params.fastTimer s.params.clockFast →
      exec .evMain s = .next { s with res := .nok, spc := .mOn }) ∧
    (FirmwareAt .mFstop s → exec .evMain s = .next
      { s.setTimer s.params.fastTimer { s.timer s.params.fastTimer with cs := .off }
        with res := .ok, spc := .mPend }) ∧
    (FirmwareAt .mPend s → exec .evMain s = .next { s with pwmTickCount := 0, spc := .loop })

/-- 44_sequencer.md R253, R258 to R261: the ON and OFF loops: 5 of 10 fast ticks for LongSide and
Rotate, 3 of 10 for ShortSide, each with its command appended to OUT. That a command also drives the
motor level m is the model's choice, log entry 10. -/
def Obligations.DutyLoops : Prop :=
  ∀ (s : State) (n : Nat) (cmd : OutEvent) (m : Motor),
    ((s.k = .longSide ∧ n = 5 ∧ cmd = .carForward ∧ m = .forward) ∨
      (s.k = .rotate ∧ n = 5 ∧ cmd = .carRotate ∧ m = .rotate) ∨
      (s.k = .shortSide ∧ n = 3 ∧ cmd = .carForward ∧ m = .forward)) →
    (FirmwareAt .mOn s → exec .evMain s = .next
      { s with p := s.pwmTickCount, spc := if s.pwmTickCount.toNat < n then .mOncmd else .mOff }) ∧
    (FirmwareAt .mOncmd s → exec .evMain s =
      .next { s with out := s.out ++ [cmd], motor := m, spc := .mOn }) ∧
    (FirmwareAt .mOff s → exec .evMain s = .next
      { s with
        p := s.pwmTickCount
        spc := if n ≤ s.pwmTickCount.toNat ∧ s.pwmTickCount.toNat < 10 then .mOffcmd
          else .mFstop }) ∧
    (FirmwareAt .mOffcmd s → exec .evMain s =
      .next { s with out := s.out ++ [.carStop], motor := .stopped, spc := .mOff })

/-- 44_sequencer.md R267, 70_reset_and_hazards.md R350: an Abort in the ON phase (M_ON,
M_ONCMD) restarts it, an Abort in the OFF phase (M_OFF, M_OFFCMD) closes the window at the next
test. -/
def Obligations.AbortInsideAWindow : Prop :=
  ∀ (s : State) (src : IrqSource), s.mainProgram = .application → irqEnabled src s = true →
    irqSlot src s = abortHandle → s.k ≠ .stop →
    (s.spc = .mOn → ∃ s', runList [.evIrq (sourceCode src), .evMain] s = .next s' ∧
      s'.spc = .mOncmd ∧ s'.p = 0 ∧ s'.runState = .stopped) ∧
    (s.spc = .mOncmd → ∃ s', runList [.evIrq (sourceCode src), .evMain, .evMain] s = .next s' ∧
      s'.spc = .mOncmd ∧ s'.p = 0 ∧ s'.runState = .stopped) ∧
    (s.spc = .mOff → ∃ s', runList [.evIrq (sourceCode src), .evMain] s = .next s' ∧
      s'.spc = .mFstop ∧ s'.p = 0 ∧ s'.runState = .stopped) ∧
    (s.spc = .mOffcmd → ∃ s', runList [.evIrq (sourceCode src), .evMain, .evMain] s = .next s' ∧
      s'.spc = .mFstop ∧ s'.p = 0 ∧ s'.runState = .stopped)

/-! ### Steps and invariants -/

/-- 10_state.md R30, 30_encoding.md R104 and log entry 4: a step whose next trace word names an event is
that event's meaning, with the word taken off the trace; where that event is EV.MAIN and the words at
PC decode to a command, it is the command's meaning with PC moved past it. -/
def Obligations.StepRunsTheNamedEvent : Prop :=
  (∀ (s : State) (w : Word) (rest : List Word) (i : Instr), s.trace = w :: rest →
    decode w none = .ok i → i.isEvent = true → step s = exec i { s with trace := rest }) ∧
  ∀ (s : State) (w w0 : Word) (rest words : List Word) (i : Instr), s.trace = w :: rest →
    decode w none = .ok .evMain → s.refused = none → s.mainProgram = .driverProgram words →
    words[s.pc]? = some w0 → decode w0 words[s.pc + 1]? = .ok i → i.isEvent = false →
    ∃ s', exec i { s with trace := rest } = .next s' ∧
      step s = .next { s' with pc := s.pc + i.length }

/-- Log entry 4 (the model's choice): with no named event, a step of a state that is not refused is the
step of some enabled agent; the machine never waits. -/
def Obligations.FreeStepRunsAnEnabledAgent : Prop :=
  ∀ (s : State), s.trace = [] → s.refused = none →
    ∃ i s', i.isEvent = true ∧ i.wellFormed = true ∧
      exec i { s with choices := s.choices + 1 } = .next s' ∧ step s = .next s'

/-- Log entry 7 (the model's choice): a command placed at the fetch is executed by the next step,
which moves PC past it. -/
def Obligations.PlacedCommandRunsNext : Prop :=
  ∀ (s : State) (nbits w : Nat) (i : Instr), s.refused = none →
    decodeTableWord nbits w = some i → i.isEvent = false →
    ∃ s', exec i { s.withFetchWord nbits w with trace := s.trace } = .next s' ∧
      step (s.withFetchWord nbits w) = .next { s' with pc := s.pc + i.length }

/-- 60_exceptions.md R306: a refused step changes nothing but REFUSED, and after it no agent has an
enabled step and no step follows. -/
def Obligations.RefusalIsFinal : Prop :=
  (∀ (i : Instr) (s s' : State), exec i s = .next s' → s.refused = none → s'.refused ≠ none →
    s' = { s with refused := s'.refused }) ∧
  ∀ (s : State), s.refused ≠ none →
    (∀ i, i.isEvent = true → exec i s = .fault .notEnabled) ∧ ∀ s', step s ≠ .next s'

/-- 10_state.md R55, 20_memory.md R82: no step writes the parameters or the program, and no meaning
touches the trace or the choice counter; the parameters after reset have R8's default widths (log entry 3)
and meet R8's constraints (log entry 2). That they stand in State is the model's choice, log entries 1
and 4. -/
def Obligations.ProgramAndParametersNeverChange : Prop :=
  (State.reset.width .t0 = 8 ∧ State.reset.width .t1 = 16 ∧ State.reset.width .t2 = 8 ∧
    paramsValid State.reset.params = true) ∧
  (∀ (i : Instr) (s s' : State), exec i s = .next s' →
    s'.params = s.params ∧ s'.mainProgram = s.mainProgram ∧ s'.trace = s.trace ∧
      s'.choices = s.choices) ∧
  ∀ (s s' : State), step s = .next s' → s'.params = s.params ∧ s'.mainProgram = s.mainProgram

/-- 10_state.md R44: no operation clears I, and only a successful START sets it: the command, EV.MAIN at
a START word of a driver program, or the firmware at R_TSTART or M_FSTART. -/
def Obligations.GlobalEnableIsSetByStartOnly : Prop :=
  ∀ (i : Instr) (s s' : State), exec i s = .next s' →
    (s.gie = true → s'.gie = true) ∧
    (s.gie = false → s'.gie = true →
      s'.res = .ok ∧ (isStart i ∨
        i = .evMain ∧ (FirmwareAt .rTstart s ∨ FirmwareAt .mFstart s ∨
          ∃ words w0 j, s.mainProgram = .driverProgram words ∧ words[s.pc]? = some w0 ∧
            decode w0 words[s.pc + 1]? = .ok j ∧ isStart j)))

/-- 10_state.md R48: only an interrupt whose callback is Abort makes runState STOPPED, only the
micro-step S_RUN makes it RUNNING. -/
def Obligations.RunStateWriters : Prop :=
  ∀ (i : Instr) (s s' : State), exec i s = .next s' → s'.runState ≠ s.runState →
    (s'.runState = .stopped ∧ ∃ src, i = .evIrq (sourceCode src) ∧ irqSlot src s = abortHandle) ∨
      (s'.runState = .running ∧ i = .evMain ∧ FirmwareAt .sRun s)

/-- 44_sequencer.md R234, 20_memory.md R79: the main context only stores constants, 0 or WRAP_TO, into
the tick counters, and ticks, edges and the button leave them. -/
def Obligations.MainContextOnlyResetsTheCounters : Prop :=
  ∀ (i : Instr) (s s' : State), exec i s = .next s' → (∀ a, i ≠ .evIrq a) →
    (s'.pwmTickCount = s.pwmTickCount ∨ (s'.pwmTickCount = 0 ∧ i = .evMain)) ∧
    (s'.delayTickCount = s.delayTickCount ∨
      ((s'.delayTickCount = 0 ∨ s'.delayTickCount = s.params.wrapTo) ∧ i = .evMain))

/-- 10_state.md R52: the output log only grows, and only the main context appends to it. -/
def Obligations.OutputLogOnlyGrows : Prop :=
  ∀ (i : Instr) (s s' : State), exec i s = .next s' →
    ∃ os, s'.out = s.out ++ os ∧ (i ≠ .evMain → os = [])

/-- 10_state.md R35, R36 and R39, 40_timer_driver.md R123 with 41_timer_counter.md R162 and R164, and
70_reset_and_hazards.md R345: every step keeps counts and compare values within W(t) bits (log
entry 24), each clock select off or accepted by its timer, the overflow enable to Normal mode and the
compare enable to CTC mode, and no timer running while I is 0. -/
def Obligations.StepKeepsTimerInvariants : Prop :=
  ∀ (s s' : State), step s = .next s' →
    (countsFit s → countsFit s') ∧ (clocksValid s → clocksValid s') ∧ (enablesMatchMode s → enablesMatchMode s') ∧
      (runningImpliesEnabled s → runningImpliesEnabled s')

/-- 44_sequencer.md R266: every step keeps what the locals say at each label, so an ON command follows
a sample below DUTY(k) and a stop command of the window one from DUTY(k) to 9. -/
def Obligations.StepKeepsLocalsMatchLabel : Prop :=
  ∀ (s s' : State), localsMatchLabel s → step s = .next s' → localsMatchLabel s'

/-- 10_state.md R52 and log entry 10 (the model's levels): every step keeps the motor and indicator
levels at what the output log drove last. -/
def Obligations.StepKeepsLevelsMatchOut : Prop :=
  ∀ (s s' : State), levelsMatchOut s → step s = .next s' → levelsMatchOut s'

/-- 10_state.md section 12 (R56): the invariants hold right after reset. That the levels agree with the
empty log is about the model's level fields, log entry 10; the width of the counts is log entry 24. -/
def Obligations.ResetMeetsTheInvariants : Prop :=
  countsFit State.reset ∧ clocksValid State.reset ∧ enablesMatchMode State.reset ∧ runningImpliesEnabled State.reset ∧
    localsMatchLabel State.reset ∧ levelsMatchOut State.reset

/-- 10_state.md R56, 70_reset_and_hazards.md R341, R342: what reset leaves. -/
def Obligations.ResetState : Prop :=
  (∀ t, State.reset.timer t =
    { cnt := 0, ocr := 0, wgm := .normal, com := 0, cs := .off
      toie := false, ocie := false, tov := false, ocf := false, cb := 0 }) ∧
  (∀ l, State.reset.line l = { en := false, edge := .low, intf := false, xcb := 0 }) ∧
  State.reset.gie = false ∧ State.reset.pwmTickCount = 0 ∧ State.reset.delayTickCount = 0 ∧
  State.reset.runState = .stopped ∧ State.reset.res = .ok ∧ State.reset.val = 0 ∧
  State.reset.pc = 0 ∧ State.reset.spc = .bFast ∧ State.reset.out = [] ∧
  State.reset.refused = none

/-- 10_state.md R38, 43_exti.md R207: no rule reads the compare-output fields or the edge modes: an
instruction run in two states that differ only there has the same outcome but for them. -/
def Obligations.CompareOutputAndEdgeAreNeverRead : Prop :=
  ∀ (i : Instr) (s : State),
    mapNext eraseUnread (exec i s) = mapNext eraseUnread (exec i (eraseUnread s))
end

