-- ==== Sys2Proof/Laws/State.lean ====
section
/-! SUPPORT. One lemma per field and named update of State, true by rfl, and the read-after-write laws
of the timers, the lines and the indicators. -/

namespace Sys2Proof.Machine

/-! ### Read after write -/

@[simp] theorem Timers.get_set_same (ts : Timers) (t : TimerId) (r : TimerRegs) :
    (ts.set t r).get t = r := by
  cases t <;> rfl

theorem Timers.get_set_other (ts : Timers) (t u : TimerId) (r : TimerRegs)
    (h : u ≠ t) : (ts.set t r).get u = ts.get u := by
  cases t <;> cases u <;> first | rfl | exact absurd rfl h

@[simp] theorem Timers.set_get (ts : Timers) (t : TimerId) : ts.set t (ts.get t) = ts := by
  cases t <;> rfl

@[simp] theorem Timers.set_set (ts : Timers) (t : TimerId) (r r' : TimerRegs) :
    (ts.set t r).set t r' = ts.set t r' := by
  cases t <;> rfl

theorem Timers.set_comm (ts : Timers) (t u : TimerId) (r : TimerRegs)
    (r' : TimerRegs) (h : u ≠ t) :
    (ts.set t r).set u r' = (ts.set u r').set t r := by
  cases t <;> cases u <;> first | rfl | exact absurd rfl h

@[simp] theorem Lines.get_set_same (ls : Lines) (l : Line) (r : LineRegs) : (ls.set l r).get l = r := by
  cases l <;> rfl

theorem Lines.get_set_other (ls : Lines) (l m : Line) (r : LineRegs) (h : m ≠ l) :
    (ls.set l r).get m = ls.get m := by
  cases l <;> cases m <;> first | rfl | exact absurd rfl h

@[simp] theorem Lines.set_get (ls : Lines) (l : Line) : ls.set l (ls.get l) = ls := by
  cases l <;> rfl

@[simp] theorem Lines.set_set (ls : Lines) (l : Line) (r r' : LineRegs) :
    (ls.set l r).set l r' = ls.set l r' := by
  cases l <;> rfl

@[simp] theorem Leds.get_set_same (ls : Leds) (i : Maneuver) (v : Bool) : (ls.set i v).get i = v := by
  cases i <;> rfl

theorem Leds.get_set_other (ls : Leds) (i j : Maneuver) (v : Bool) (h : j ≠ i) :
    (ls.set i v).get j = ls.get j := by
  cases i <;> cases j <;> first | rfl | exact absurd rfl h

@[simp] theorem timer_setTimer_same (s : State) (t : TimerId) (r : TimerRegs) :
    (s.setTimer t r).timer t = r := Timers.get_set_same s.timers t r

theorem timer_setTimer_other (s : State) (t u : TimerId) (r : TimerRegs)
    (h : u ≠ t) : (s.setTimer t r).timer u = s.timer u := Timers.get_set_other s.timers t u r h

@[simp] theorem line_setLine_same (s : State) (l : Line) (r : LineRegs) :
    (s.setLine l r).line l = r := Lines.get_set_same s.lines l r

theorem line_setLine_other (s : State) (l m : Line) (r : LineRegs) (h : m ≠ l) :
    (s.setLine l r).line m = s.line m := Lines.get_set_other s.lines l m r h

theorem timer_of_timers_eq {s s' : State} (h : s'.timers = s.timers) (t : TimerId) :
    s'.timer t = s.timer t := by
  simp [State.timer, h]

theorem line_of_lines_eq {s s' : State} (h : s'.lines = s.lines) (l : Line) :
    s'.line l = s.line l := by
  simp [State.line, h]

/-! ### Fields of setTimer -/

@[simp] theorem setTimer_timers (s : State) (t : TimerId) (r : TimerRegs) :
    (s.setTimer t r).timers = s.timers.set t r := rfl

@[simp] theorem setTimer_lines (s : State) (t : TimerId) (r : TimerRegs) :
    (s.setTimer t r).lines = s.lines := rfl

@[simp] theorem setTimer_gie (s : State) (t : TimerId) (r : TimerRegs) :
    (s.setTimer t r).gie = s.gie := rfl

@[simp] theorem setTimer_res (s : State) (t : TimerId) (r : TimerRegs) :
    (s.setTimer t r).res = s.res := rfl

@[simp] theorem setTimer_val (s : State) (t : TimerId) (r : TimerRegs) :
    (s.setTimer t r).val = s.val := rfl

@[simp] theorem setTimer_pc (s : State) (t : TimerId) (r : TimerRegs) :
    (s.setTimer t r).pc = s.pc := rfl

@[simp] theorem setTimer_spc (s : State) (t : TimerId) (r : TimerRegs) :
    (s.setTimer t r).spc = s.spc := rfl

@[simp] theorem setTimer_d (s : State) (t : TimerId) (r : TimerRegs) :
    (s.setTimer t r).d = s.d := rfl

@[simp] theorem setTimer_p (s : State) (t : TimerId) (r : TimerRegs) :
    (s.setTimer t r).p = s.p := rfl

@[simp] theorem setTimer_k (s : State) (t : TimerId) (r : TimerRegs) :
    (s.setTimer t r).k = s.k := rfl

@[simp] theorem setTimer_pwmTickCount (s : State) (t : TimerId) (r : TimerRegs) :
    (s.setTimer t r).pwmTickCount = s.pwmTickCount := rfl

@[simp] theorem setTimer_delayTickCount (s : State) (t : TimerId) (r : TimerRegs) :
    (s.setTimer t r).delayTickCount = s.delayTickCount := rfl

@[simp] theorem setTimer_runState (s : State) (t : TimerId) (r : TimerRegs) :
    (s.setTimer t r).runState = s.runState := rfl

@[simp] theorem setTimer_out (s : State) (t : TimerId) (r : TimerRegs) :
    (s.setTimer t r).out = s.out := rfl

@[simp] theorem setTimer_motor (s : State) (t : TimerId) (r : TimerRegs) :
    (s.setTimer t r).motor = s.motor := rfl

@[simp] theorem setTimer_leds (s : State) (t : TimerId) (r : TimerRegs) :
    (s.setTimer t r).leds = s.leds := rfl

@[simp] theorem setTimer_btn (s : State) (t : TimerId) (r : TimerRegs) :
    (s.setTimer t r).btn = s.btn := rfl

@[simp] theorem setTimer_refused (s : State) (t : TimerId) (r : TimerRegs) :
    (s.setTimer t r).refused = s.refused := rfl

@[simp] theorem setTimer_params (s : State) (t : TimerId) (r : TimerRegs) :
    (s.setTimer t r).params = s.params := rfl

@[simp] theorem setTimer_mainProgram (s : State) (t : TimerId) (r : TimerRegs) :
    (s.setTimer t r).mainProgram = s.mainProgram := rfl

@[simp] theorem setTimer_trace (s : State) (t : TimerId) (r : TimerRegs) :
    (s.setTimer t r).trace = s.trace := rfl

@[simp] theorem setTimer_choices (s : State) (t : TimerId) (r : TimerRegs) :
    (s.setTimer t r).choices = s.choices := rfl

@[simp] theorem setTimer_line (s : State) (t : TimerId) (r : TimerRegs) (m : Line) :
    (s.setTimer t r).line m = s.line m := rfl

/-! ### Fields of setLine -/

@[simp] theorem setLine_timers (s : State) (l : Line) (r : LineRegs) :
    (s.setLine l r).timers = s.timers := rfl

@[simp] theorem setLine_lines (s : State) (l : Line) (r : LineRegs) :
    (s.setLine l r).lines = s.lines.set l r := rfl

@[simp] theorem setLine_gie (s : State) (l : Line) (r : LineRegs) :
    (s.setLine l r).gie = s.gie := rfl

@[simp] theorem setLine_res (s : State) (l : Line) (r : LineRegs) :
    (s.setLine l r).res = s.res := rfl

@[simp] theorem setLine_val (s : State) (l : Line) (r : LineRegs) :
    (s.setLine l r).val = s.val := rfl

@[simp] theorem setLine_pc (s : State) (l : Line) (r : LineRegs) :
    (s.setLine l r).pc = s.pc := rfl

@[simp] theorem setLine_spc (s : State) (l : Line) (r : LineRegs) :
    (s.setLine l r).spc = s.spc := rfl

@[simp] theorem setLine_d (s : State) (l : Line) (r : LineRegs) :
    (s.setLine l r).d = s.d := rfl

@[simp] theorem setLine_p (s : State) (l : Line) (r : LineRegs) :
    (s.setLine l r).p = s.p := rfl

@[simp] theorem setLine_k (s : State) (l : Line) (r : LineRegs) :
    (s.setLine l r).k = s.k := rfl

@[simp] theorem setLine_pwmTickCount (s : State) (l : Line) (r : LineRegs) :
    (s.setLine l r).pwmTickCount = s.pwmTickCount := rfl

@[simp] theorem setLine_delayTickCount (s : State) (l : Line) (r : LineRegs) :
    (s.setLine l r).delayTickCount = s.delayTickCount := rfl

@[simp] theorem setLine_runState (s : State) (l : Line) (r : LineRegs) :
    (s.setLine l r).runState = s.runState := rfl

@[simp] theorem setLine_out (s : State) (l : Line) (r : LineRegs) :
    (s.setLine l r).out = s.out := rfl

@[simp] theorem setLine_motor (s : State) (l : Line) (r : LineRegs) :
    (s.setLine l r).motor = s.motor := rfl

@[simp] theorem setLine_leds (s : State) (l : Line) (r : LineRegs) :
    (s.setLine l r).leds = s.leds := rfl

@[simp] theorem setLine_btn (s : State) (l : Line) (r : LineRegs) :
    (s.setLine l r).btn = s.btn := rfl

@[simp] theorem setLine_refused (s : State) (l : Line) (r : LineRegs) :
    (s.setLine l r).refused = s.refused := rfl

@[simp] theorem setLine_params (s : State) (l : Line) (r : LineRegs) :
    (s.setLine l r).params = s.params := rfl

@[simp] theorem setLine_mainProgram (s : State) (l : Line) (r : LineRegs) :
    (s.setLine l r).mainProgram = s.mainProgram := rfl

@[simp] theorem setLine_trace (s : State) (l : Line) (r : LineRegs) :
    (s.setLine l r).trace = s.trace := rfl

@[simp] theorem setLine_choices (s : State) (l : Line) (r : LineRegs) :
    (s.setLine l r).choices = s.choices := rfl

@[simp] theorem setLine_timer (s : State) (l : Line) (r : LineRegs) (u : TimerId) :
    (s.setLine l r).timer u = s.timer u := rfl

/-! ### Fields of raise -/

@[simp] theorem raise_timers (e : RefusalReason) (s : State) :
    (raise e s).timers = s.timers := rfl

@[simp] theorem raise_lines (e : RefusalReason) (s : State) :
    (raise e s).lines = s.lines := rfl

@[simp] theorem raise_gie (e : RefusalReason) (s : State) :
    (raise e s).gie = s.gie := rfl

@[simp] theorem raise_res (e : RefusalReason) (s : State) :
    (raise e s).res = s.res := rfl

@[simp] theorem raise_val (e : RefusalReason) (s : State) :
    (raise e s).val = s.val := rfl

@[simp] theorem raise_pc (e : RefusalReason) (s : State) :
    (raise e s).pc = s.pc := rfl

@[simp] theorem raise_spc (e : RefusalReason) (s : State) :
    (raise e s).spc = s.spc := rfl

@[simp] theorem raise_d (e : RefusalReason) (s : State) :
    (raise e s).d = s.d := rfl

@[simp] theorem raise_p (e : RefusalReason) (s : State) :
    (raise e s).p = s.p := rfl

@[simp] theorem raise_k (e : RefusalReason) (s : State) :
    (raise e s).k = s.k := rfl

@[simp] theorem raise_pwmTickCount (e : RefusalReason) (s : State) :
    (raise e s).pwmTickCount = s.pwmTickCount := rfl

@[simp] theorem raise_delayTickCount (e : RefusalReason) (s : State) :
    (raise e s).delayTickCount = s.delayTickCount := rfl

@[simp] theorem raise_runState (e : RefusalReason) (s : State) :
    (raise e s).runState = s.runState := rfl

@[simp] theorem raise_out (e : RefusalReason) (s : State) :
    (raise e s).out = s.out := rfl

@[simp] theorem raise_motor (e : RefusalReason) (s : State) :
    (raise e s).motor = s.motor := rfl

@[simp] theorem raise_leds (e : RefusalReason) (s : State) :
    (raise e s).leds = s.leds := rfl

@[simp] theorem raise_btn (e : RefusalReason) (s : State) :
    (raise e s).btn = s.btn := rfl

@[simp] theorem raise_refused (e : RefusalReason) (s : State) :
    (raise e s).refused = some e := rfl

@[simp] theorem raise_params (e : RefusalReason) (s : State) :
    (raise e s).params = s.params := rfl

@[simp] theorem raise_mainProgram (e : RefusalReason) (s : State) :
    (raise e s).mainProgram = s.mainProgram := rfl

@[simp] theorem raise_trace (e : RefusalReason) (s : State) :
    (raise e s).trace = s.trace := rfl

@[simp] theorem raise_choices (e : RefusalReason) (s : State) :
    (raise e s).choices = s.choices := rfl

@[simp] theorem raise_timer (e : RefusalReason) (s : State) (u : TimerId) :
    (raise e s).timer u = s.timer u := rfl

@[simp] theorem raise_line (e : RefusalReason) (s : State) (m : Line) :
    (raise e s).line m = s.line m := rfl

/-! ### Fields of issue -/

@[simp] theorem issue_timers (c : ResultCode) (s : State) :
    (issue (c, s)).timers = s.timers := rfl

@[simp] theorem issue_lines (c : ResultCode) (s : State) :
    (issue (c, s)).lines = s.lines := rfl

@[simp] theorem issue_gie (c : ResultCode) (s : State) :
    (issue (c, s)).gie = s.gie := rfl

@[simp] theorem issue_res (c : ResultCode) (s : State) :
    (issue (c, s)).res = c := rfl

@[simp] theorem issue_val (c : ResultCode) (s : State) :
    (issue (c, s)).val = s.val := rfl

@[simp] theorem issue_pc (c : ResultCode) (s : State) :
    (issue (c, s)).pc = s.pc := rfl

@[simp] theorem issue_spc (c : ResultCode) (s : State) :
    (issue (c, s)).spc = s.spc := rfl

@[simp] theorem issue_d (c : ResultCode) (s : State) :
    (issue (c, s)).d = s.d := rfl

@[simp] theorem issue_p (c : ResultCode) (s : State) :
    (issue (c, s)).p = s.p := rfl

@[simp] theorem issue_k (c : ResultCode) (s : State) :
    (issue (c, s)).k = s.k := rfl

@[simp] theorem issue_pwmTickCount (c : ResultCode) (s : State) :
    (issue (c, s)).pwmTickCount = s.pwmTickCount := rfl

@[simp] theorem issue_delayTickCount (c : ResultCode) (s : State) :
    (issue (c, s)).delayTickCount = s.delayTickCount := rfl

@[simp] theorem issue_runState (c : ResultCode) (s : State) :
    (issue (c, s)).runState = s.runState := rfl

@[simp] theorem issue_out (c : ResultCode) (s : State) :
    (issue (c, s)).out = s.out := rfl

@[simp] theorem issue_motor (c : ResultCode) (s : State) :
    (issue (c, s)).motor = s.motor := rfl

@[simp] theorem issue_leds (c : ResultCode) (s : State) :
    (issue (c, s)).leds = s.leds := rfl

@[simp] theorem issue_btn (c : ResultCode) (s : State) :
    (issue (c, s)).btn = s.btn := rfl

@[simp] theorem issue_refused (c : ResultCode) (s : State) :
    (issue (c, s)).refused = s.refused := rfl

@[simp] theorem issue_params (c : ResultCode) (s : State) :
    (issue (c, s)).params = s.params := rfl

@[simp] theorem issue_mainProgram (c : ResultCode) (s : State) :
    (issue (c, s)).mainProgram = s.mainProgram := rfl

@[simp] theorem issue_trace (c : ResultCode) (s : State) :
    (issue (c, s)).trace = s.trace := rfl

@[simp] theorem issue_choices (c : ResultCode) (s : State) :
    (issue (c, s)).choices = s.choices := rfl

@[simp] theorem issue_timer (c : ResultCode) (s : State) (u : TimerId) :
    (issue (c, s)).timer u = s.timer u := rfl

@[simp] theorem issue_line (c : ResultCode) (s : State) (m : Line) :
    (issue (c, s)).line m = s.line m := rfl

/-! ### Fields of emit -/

@[simp] theorem emit_timers (o : OutEvent) (s : State) :
    (emit o s).timers = s.timers := rfl

@[simp] theorem emit_lines (o : OutEvent) (s : State) :
    (emit o s).lines = s.lines := rfl

@[simp] theorem emit_gie (o : OutEvent) (s : State) :
    (emit o s).gie = s.gie := rfl

@[simp] theorem emit_res (o : OutEvent) (s : State) :
    (emit o s).res = s.res := rfl

@[simp] theorem emit_val (o : OutEvent) (s : State) :
    (emit o s).val = s.val := rfl

@[simp] theorem emit_pc (o : OutEvent) (s : State) :
    (emit o s).pc = s.pc := rfl

@[simp] theorem emit_spc (o : OutEvent) (s : State) :
    (emit o s).spc = s.spc := rfl

@[simp] theorem emit_d (o : OutEvent) (s : State) :
    (emit o s).d = s.d := rfl

@[simp] theorem emit_p (o : OutEvent) (s : State) :
    (emit o s).p = s.p := rfl

@[simp] theorem emit_k (o : OutEvent) (s : State) :
    (emit o s).k = s.k := rfl

@[simp] theorem emit_pwmTickCount (o : OutEvent) (s : State) :
    (emit o s).pwmTickCount = s.pwmTickCount := rfl

@[simp] theorem emit_delayTickCount (o : OutEvent) (s : State) :
    (emit o s).delayTickCount = s.delayTickCount := rfl

@[simp] theorem emit_runState (o : OutEvent) (s : State) :
    (emit o s).runState = s.runState := rfl

@[simp] theorem emit_out (o : OutEvent) (s : State) :
    (emit o s).out = s.out ++ [o] := rfl

@[simp] theorem emit_motor (o : OutEvent) (s : State) :
    (emit o s).motor = motorAfter o s.motor := rfl

@[simp] theorem emit_leds (o : OutEvent) (s : State) :
    (emit o s).leds = ledsAfter o s.leds := rfl

@[simp] theorem emit_btn (o : OutEvent) (s : State) :
    (emit o s).btn = s.btn := rfl

@[simp] theorem emit_refused (o : OutEvent) (s : State) :
    (emit o s).refused = s.refused := rfl

@[simp] theorem emit_params (o : OutEvent) (s : State) :
    (emit o s).params = s.params := rfl

@[simp] theorem emit_mainProgram (o : OutEvent) (s : State) :
    (emit o s).mainProgram = s.mainProgram := rfl

@[simp] theorem emit_trace (o : OutEvent) (s : State) :
    (emit o s).trace = s.trace := rfl

@[simp] theorem emit_choices (o : OutEvent) (s : State) :
    (emit o s).choices = s.choices := rfl

@[simp] theorem emit_timer (o : OutEvent) (s : State) (u : TimerId) :
    (emit o s).timer u = s.timer u := rfl

@[simp] theorem emit_line (o : OutEvent) (s : State) (m : Line) :
    (emit o s).line m = s.line m := rfl

/-! ### Fields of goto -/

@[simp] theorem goto_timers (l : Label) (s : State) :
    (goto l s).timers = s.timers := rfl

@[simp] theorem goto_lines (l : Label) (s : State) :
    (goto l s).lines = s.lines := rfl

@[simp] theorem goto_gie (l : Label) (s : State) :
    (goto l s).gie = s.gie := rfl

@[simp] theorem goto_res (l : Label) (s : State) :
    (goto l s).res = s.res := rfl

@[simp] theorem goto_val (l : Label) (s : State) :
    (goto l s).val = s.val := rfl

@[simp] theorem goto_pc (l : Label) (s : State) :
    (goto l s).pc = s.pc := rfl

@[simp] theorem goto_spc (l : Label) (s : State) :
    (goto l s).spc = l := rfl

@[simp] theorem goto_d (l : Label) (s : State) :
    (goto l s).d = s.d := rfl

@[simp] theorem goto_p (l : Label) (s : State) :
    (goto l s).p = s.p := rfl

@[simp] theorem goto_k (l : Label) (s : State) :
    (goto l s).k = s.k := rfl

@[simp] theorem goto_pwmTickCount (l : Label) (s : State) :
    (goto l s).pwmTickCount = s.pwmTickCount := rfl

@[simp] theorem goto_delayTickCount (l : Label) (s : State) :
    (goto l s).delayTickCount = s.delayTickCount := rfl

@[simp] theorem goto_runState (l : Label) (s : State) :
    (goto l s).runState = s.runState := rfl

@[simp] theorem goto_out (l : Label) (s : State) :
    (goto l s).out = s.out := rfl

@[simp] theorem goto_motor (l : Label) (s : State) :
    (goto l s).motor = s.motor := rfl

@[simp] theorem goto_leds (l : Label) (s : State) :
    (goto l s).leds = s.leds := rfl

@[simp] theorem goto_btn (l : Label) (s : State) :
    (goto l s).btn = s.btn := rfl

@[simp] theorem goto_refused (l : Label) (s : State) :
    (goto l s).refused = s.refused := rfl

@[simp] theorem goto_params (l : Label) (s : State) :
    (goto l s).params = s.params := rfl

@[simp] theorem goto_mainProgram (l : Label) (s : State) :
    (goto l s).mainProgram = s.mainProgram := rfl

@[simp] theorem goto_trace (l : Label) (s : State) :
    (goto l s).trace = s.trace := rfl

@[simp] theorem goto_choices (l : Label) (s : State) :
    (goto l s).choices = s.choices := rfl

@[simp] theorem goto_timer (l : Label) (s : State) (u : TimerId) :
    (goto l s).timer u = s.timer u := rfl

@[simp] theorem goto_line (l : Label) (s : State) (m : Line) :
    (goto l s).line m = s.line m := rfl

end Sys2Proof.Machine
end

