-- ==== Sys2Proof/Laws/Codes.lean ====
section
/-! SUPPORT. What the codes of the enumerations name: reading a code back gives what was written, and
a field names something exactly when it is in range. -/

namespace Sys2Proof.Machine

@[simp] theorem timerOf_timerCode (t : TimerId) : timerOf (timerCode t) = some t := by
  cases t <;> rfl

theorem timerOf_none : ∀ id : Code, 2 < id.toNat → timerOf id = none := by decide

theorem timerCode_of_timerOf {id : Code} {t : TimerId} (h : timerOf id = some t) :
    id = timerCode t := by
  revert id; cases t <;> decide

@[simp] theorem lineOf_lineCode (l : Line) : lineOf (lineCode l) = some l := by
  cases l <;> rfl

theorem lineOf_none : ∀ id : Code, 2 < id.toNat → lineOf id = none := by decide

theorem lineCode_of_lineOf {id : Code} {l : Line} (h : lineOf id = some l) : id = lineCode l := by
  revert id; cases l <;> decide

@[simp] theorem modeOf_modeCode (m : WaveMode) : modeOf (modeCode m) = some m := by
  cases m <;> rfl

theorem modeOf_none : ∀ a : Code, 3 < a.toNat → modeOf a = none := by decide

theorem modeCode_of_modeOf {a : Code} {m : WaveMode} (h : modeOf a = some m) : a = modeCode m := by
  revert a; cases m <;> decide

@[simp] theorem clockOf_clockCode (c : Clock) : clockOf (clockCode c) = some c := by
  cases c <;> rfl

theorem clockOf_none : ∀ a : Code, 9 < a.toNat → clockOf a = none := by decide

theorem clockCode_of_clockOf {a : Code} {c : Clock} (h : clockOf a = some c) : a = clockCode c := by
  revert a; cases c <;> decide

@[simp] theorem edgeOf_edgeCode (e : EdgeMode) : edgeOf (edgeCode e) = some e := by
  cases e <;> rfl

theorem edgeOf_none : ∀ a : Code, 3 < a.toNat → edgeOf a = none := by decide

theorem edgeCode_of_edgeOf {a : Code} {e : EdgeMode} (h : edgeOf a = some e) : a = edgeCode e := by
  revert a; cases e <;> decide

@[simp] theorem sourceOf_sourceCode (src : IrqSource) : sourceOf (sourceCode src) = some src := by
  rcases src with l | t | t
  · cases l <;> rfl
  · cases t <;> rfl
  · cases t <;> rfl

theorem sourceOf_none : ∀ a : Code, 8 < a.toNat → sourceOf a = none := by decide

theorem sourceCode_of_sourceOf {a : Code} {src : IrqSource} (h : sourceOf a = some src) :
    a = sourceCode src := by
  revert a; rcases src with l | t | t
  · cases l <;> decide
  · cases t <;> decide
  · cases t <;> decide

/-- An identifier names a timer exactly when it is at most 2 (40_timer_driver.md R120). -/
theorem mgrIdOk_iff : ∀ id : Code, mgrIdOk id = decide (id.toNat ≤ 2) := by decide

@[simp] theorem mgrIdOk_timerCode (t : TimerId) : mgrIdOk (timerCode t) = true := by
  cases t <;> rfl

@[simp] theorem mgrClockOk_clockCode (c : Clock) : mgrClockOk (clockCode c) = true := by
  cases c <;> rfl

/-- The driver's clock table is the spec's (40_timer_driver.md R126). -/
theorem clockValid_iff (e : Bool) (t : TimerId) (c : Clock) :
    clockValid e t c = true ↔ clockAccepted e t c := by
  cases e <;> cases t <;> cases c <;> simp [clockValid, clockAccepted]

/-- The manager's edge table is the spec's (43_exti.md R201). -/
theorem edgeValid_iff (l : Line) (e : EdgeMode) : edgeValid l e = true ↔ edgeAccepted l e := by
  cases l <;> cases e <;> simp [edgeValid, edgeAccepted]

/-- The sub-mode check is the spec's (40_timer_driver.md R120). -/
theorem subValid_iff (m : WaveMode) (b c : Code) : subValid m b c = true ↔ subAccepted m b c := by
  cases m <;> simp [subValid, subAccepted, comValid, pwmValid]

end Sys2Proof.Machine
end

