-- ==== Sys2Proof/Laws/Ops.lean ====
section
/-! SUPPORT. One lemma per shared operation that says everything it can do. -/

namespace Sys2Proof.Machine

/-! ### Counts of W(t) bits (00_scope.md R8, 10_state.md R35, R36) -/

theorem width_le (s : State) (t : TimerId) : s.width t ≤ 16 :=
  Nat.le_of_lt_succ (widthOf s.params t).isLt

theorem two_pow_width_le (s : State) (t : TimerId) : 2 ^ s.width t ≤ 65536 :=
  Nat.pow_le_pow_right (n := 2) (by decide) (width_le s t)

theorem width_of_params_eq {s s' : State} (h : s'.params = s.params) (t : TimerId) :
    s'.width t = s.width t := by
  simp [State.width, h]

@[simp] theorem width_setTimer (s : State) (t u : TimerId) (r : TimerRegs) :
    (s.setTimer t r).width u = s.width u := rfl

@[simp] theorem width_setLine (s : State) (l : Line) (r : LineRegs) (u : TimerId) :
    (s.setLine l r).width u = s.width u := rfl

/-- Truncation keeps the low w bits. -/
theorem truncTo_toNat (w : Nat) (v : Half) : (truncTo w v).toNat = v.toNat % 2 ^ w := by
  have h1 := Nat.mod_le v.toNat (2 ^ w)
  have h2 := v.isLt
  simp only [truncTo, BitVec.toNat_ofNat]
  exact Nat.mod_eq_of_lt (by omega)

theorem truncTo_lt (w : Nat) (v : Half) : (truncTo w v).toNat < 2 ^ w := by
  rw [truncTo_toNat]
  exact Nat.mod_lt _ (Nat.two_pow_pos w)

/-- A count is MAX exactly when one more is 2^W. -/
theorem eq_maxCount_iff (s : State) (t : TimerId) (v : Half) :
    v = maxCount (s.width t) ↔ v.toNat + 1 = 2 ^ s.width t := by
  have h1 := two_pow_width_le s t
  have h2 := Nat.two_pow_pos (s.width t)
  rw [← BitVec.toNat_inj, maxCount, BitVec.toNat_ofNat]
  generalize 2 ^ s.width t = m at *
  omega

/-- A Normal-mode edge keeps the count in range (41_timer_counter.md R161). -/
theorem normalCount_lt (s : State) (t : TimerId) (v : Half) (h : v.toNat < 2 ^ s.width t) :
    (normalCount (s.width t) v).toNat < 2 ^ s.width t := by
  have h1 := two_pow_width_le s t
  have h2 := eq_maxCount_iff s t v
  unfold normalCount
  generalize 2 ^ s.width t = m at *
  split
  · simpa using by omega
  · next hne =>
    have : v.toNat + 1 ≠ m := fun e => hne (h2.2 e)
    rw [BitVec.toNat_add]
    simp
    omega

/-- A CTC-mode edge keeps the count in range (41_timer_counter.md R163). -/
theorem ctcCount_lt (s : State) (t : TimerId) (ocr v : Half) (h : v.toNat < 2 ^ s.width t) :
    (ctcCount (s.width t) ocr v).toNat < 2 ^ s.width t := by
  have h0 := normalCount_lt s t v h
  unfold ctcCount
  split
  · simp
  · next hne => rwa [normalCount, if_neg (fun e => hne (.inr e))] at h0

/-! ### The driver, the manager and the external-interrupt manager -/

/-- The registers INIT writes, as the spec's tables give them (40_timer_driver.md R121 to R123). -/
theorem initRegs_eq_configured (w : Nat) (m : WaveMode) (b c : Code) (cv ic : Half)
    (r : TimerRegs) :
    initRegs w m b c cv ic r = configured w m b c cv ic r.cb := by
  have hp : ∀ c : Code, pwmCom c = if c = 0 then 0 else if c = 1 then 2 else 3 := by decide
  have hb : ∀ b : Code, b.setWidth 2 = BitVec.ofNat 2 b.toNat := by decide
  unfold initRegs configured
  cases m <;> simp only [comField, hp, hb] <;> rfl

theorem driverInit_cases (p : Bool) (id a b c : Code) (cv ic : Half) (s : State) :
    driverInit p id a b c cv ic s = (.nok, s) ∨
      ∃ t m, p = true ∧ id = timerCode t ∧ a = modeCode m ∧ subAccepted m b c ∧
        driverInit p id a b c cv ic s =
          (.ok, s.setTimer t (configured (s.width t) m b c cv ic (s.timer t).cb)) := by
  unfold driverInit
  split
  · split
    · exact .inl rfl
    · next t ht =>
      split
      · exact .inl rfl
      · next m hm =>
        split
        · next hsub =>
          exact .inr ⟨t, m, ‹_›, timerCode_of_timerOf ht, modeCode_of_modeOf hm,
            (subValid_iff m b c).1 hsub, by rw [initRegs_eq_configured]⟩
        · exact .inl rfl
  · exact .inl rfl

theorem driverSetcb_cases (id h : Code) (s : State) :
    driverSetcb id h s = (.nullPtr, s) ∧ h = 0 ∨ driverSetcb id h s = (.nok, s) ∧ h ≠ 0 ∨
      ∃ t, h ≠ 0 ∧ id = timerCode t ∧
        driverSetcb id h s = (.ok, s.setTimer t { s.timer t with cb := h }) := by
  unfold driverSetcb
  split
  · exact .inl ⟨rfl, ‹_›⟩
  · next hh =>
    split
    · exact .inr (.inl ⟨rfl, hh⟩)
    · next t ht => exact .inr (.inr ⟨t, hh, timerCode_of_timerOf ht, rfl⟩)

theorem driverStart_cases (id a : Code) (s : State) :
    driverStart id a s = (.nok, s) ∨
      ∃ t c, id = timerCode t ∧ a = clockCode c ∧ clockAccepted s.params.t2ExternalClock t c ∧
        driverStart id a s =
          (.ok, { s.setTimer t { s.timer t with cs := c } with gie := true }) := by
  unfold driverStart
  split
  · exact .inl rfl
  · next t ht =>
    split
    · exact .inl rfl
    · next c hc =>
      split
      · next hv =>
        exact .inr ⟨t, c, timerCode_of_timerOf ht, clockCode_of_clockOf hc,
          (clockValid_iff _ t c).1 hv, rfl⟩
      · exact .inl rfl

theorem driverStop_cases (id : Code) (s : State) :
    driverStop id s = (.nok, s) ∨
      ∃ t, id = timerCode t ∧
        driverStop id s = (.ok, s.setTimer t { s.timer t with cs := .off }) := by
  unfold driverStop
  split
  · exact .inl rfl
  · next t ht => exact .inr ⟨t, timerCode_of_timerOf ht, rfl⟩

theorem driverSetval_cases (id : Code) (v : Half) (s : State) :
    driverSetval id v s = (.nok, s) ∨
      ∃ t, id = timerCode t ∧
        driverSetval id v s = (.ok, s.setTimer t { s.timer t with cnt := truncTo (s.width t) v }) := by
  unfold driverSetval
  split
  · exact .inl rfl
  · next t ht => exact .inr ⟨t, timerCode_of_timerOf ht, rfl⟩

theorem driverReset_cases (id : Code) (s : State) :
    driverReset id s = (.nok, s) ∨
      ∃ t, id = timerCode t ∧
        driverReset id s =
          (.ok, s.setTimer t { TimerRegs.reset with cb := (s.timer t).cb }) := by
  unfold driverReset
  split
  · exact .inl rfl
  · next t ht => exact .inr ⟨t, timerCode_of_timerOf ht, rfl⟩

theorem driverRdcnt_cases (id : Code) (s : State) :
    driverRdcnt id s = (.nok, s) ∨
      ∃ t, id = timerCode t ∧
        driverRdcnt id s = (.ok, { s with val := (s.timer t).cnt }) := by
  unfold driverRdcnt
  split
  · exact .inl rfl
  · next t ht => exact .inr ⟨t, timerCode_of_timerOf ht, rfl⟩

/-- The manager's START is the driver's: its own checks are among the driver's. -/
theorem mgrStart_eq (id a : Code) (s : State) : mgrStart id a s = driverStart id a s := by
  have hid : mgrIdOk id = false → timerOf id = none := by revert id; decide
  have ha : mgrClockOk a = false → clockOf a = none := by revert a; decide
  unfold mgrStart
  split
  · split
    · rfl
    · next h => simp [driverStart, ha (by simpa using h)]; split <;> rfl
  · next h => simp [driverStart, hid (by simpa using h)]

/-- The manager's STOP is the driver's. -/
theorem mgrStop_eq (id : Code) (s : State) : mgrStop id s = driverStop id s := by
  have hid : mgrIdOk id = false → timerOf id = none := by revert id; decide
  unfold mgrStop
  split
  · rfl
  · next h => simp [driverStop, hid (by simpa using h)]

/-- The manager's SETVAL is the driver's. -/
theorem mgrSetval_eq (id : Code) (v : Half) (s : State) : mgrSetval id v s = driverSetval id v s := by
  have hid : mgrIdOk id = false → timerOf id = none := by revert id; decide
  unfold mgrSetval
  split
  · rfl
  · next h => simp [driverSetval, hid (by simpa using h)]

theorem mgrInit_cases (p : Bool) (id a b c h : Code) (cv ic : Half) (s : State) :
    mgrInit p id a b c h cv ic s = (.nullPtr, s) ∧ p = false ∨
      mgrInit p id a b c h cv ic s = (.nok, s) ∧ p = true ∨
      ∃ t m, p = true ∧ id = timerCode t ∧ a = modeCode m ∧ subAccepted m b c ∧
        mgrInit p id a b c h cv ic s =
          (.ok, s.setTimer t (configured (s.width t) m b c cv ic (if h = 0 then (s.timer t).cb else h))) := by
  unfold mgrInit
  split
  · next hp =>
    split
    · rcases driverInit_cases p id a b c cv ic s with hd | ⟨t, m, -, ht, hm, hs, hd⟩
      · exact .inr (.inl ⟨by simp [hd, combine], hp⟩)
      · refine .inr (.inr ⟨t, m, hp, ht, hm, hs, ?_⟩)
        by_cases hh : h = 0
        · simp [hd, hh, nullHandle, combine]
        · have h4 : ¬ h = 0#4 := hh
          have hset : driverSetcb id h (s.setTimer t (configured (s.width t) m b c cv ic (s.timer t).cb)) =
              (.ok, s.setTimer t (configured (s.width t) m b c cv ic h)) := by
            subst ht
            simp [driverSetcb, nullHandle, h4, State.setTimer, State.timer, configured]
          rw [hd]
          simp [hset, h4, nullHandle, combine]
    · exact .inr (.inl ⟨rfl, hp⟩)
  · next hp => exact .inl ⟨rfl, by simpa using hp⟩

theorem extInit_cases (p : Bool) (id a h : Code) (s : State) :
    extInit p id a h s = (.nullPtr, s) ∧ (p = false ∨ h = 0) ∨
      extInit p id a h s = (.nok, s) ∧ p = true ∧ h ≠ 0 ∨
      ∃ l e, p = true ∧ h ≠ 0 ∧ id = lineCode l ∧ a = edgeCode e ∧ edgeAccepted l e ∧
        extInit p id a h s = (.ok, s.setLine l { s.line l with edge := e, xcb := h }) := by
  unfold extInit
  split
  · next hp =>
    split
    · exact .inl ⟨rfl, .inr ‹_›⟩
    · next hh =>
      split
      · exact .inr (.inl ⟨rfl, hp, hh⟩)
      · next l hl =>
        split
        · exact .inr (.inl ⟨rfl, hp, hh⟩)
        · next e he =>
          split
          · next hv =>
            exact .inr (.inr ⟨l, e, hp, hh, lineCode_of_lineOf hl, edgeCode_of_edgeOf he,
              (edgeValid_iff l e).1 hv, rfl⟩)
          · exact .inr (.inl ⟨rfl, hp, hh⟩)
  · next hp => exact .inl ⟨rfl, .inl (by simpa using hp)⟩

theorem extEnable_cases (id : Code) (s : State) :
    extEnable id s = (.nok, s) ∨
      ∃ l, id = lineCode l ∧ extEnable id s = (.ok, s.setLine l { s.line l with en := true }) := by
  unfold extEnable
  split
  · exact .inl rfl
  · next l hl => exact .inr ⟨l, lineCode_of_lineOf hl, rfl⟩

theorem extDisable_cases (id : Code) (s : State) :
    extDisable id s = (.nok, s) ∨
      ∃ l, id = lineCode l ∧ extDisable id s = (.ok, s.setLine l { s.line l with en := false }) := by
  unfold extDisable
  split
  · exact .inl rfl
  · next l hl => exact .inr ⟨l, lineCode_of_lineOf hl, rfl⟩

theorem extSetcb_cases (id h : Code) (s : State) :
    extSetcb id h s = (.nullPtr, s) ∧ h = 0 ∨ extSetcb id h s = (.nok, s) ∧ h ≠ 0 ∨
      ∃ l, h ≠ 0 ∧ id = lineCode l ∧
        extSetcb id h s = (.ok, s.setLine l { s.line l with xcb := h }) := by
  unfold extSetcb
  split
  · exact .inl ⟨rfl, ‹_›⟩
  · next hh =>
    split
    · exact .inr (.inl ⟨rfl, hh⟩)
    · next l hl => exact .inr (.inr ⟨l, hh, lineCode_of_lineOf hl, rfl⟩)

/-- FastTick in one equation (44_sequencer.md R231): its re-arm always succeeds. -/
theorem fastTick_eq (s : State) :
    fastTick s = { s.setTimer s.params.fastTimer
      { s.timer s.params.fastTimer with cnt := truncTo (s.width s.params.fastTimer) s.params.preloadFast }
      with pwmTickCount := s.pwmTickCount + 1 } := by
  simp [fastTick, mgrSetval, driverSetval]
  rfl

/-- SlowTick in one equation (44_sequencer.md R232). -/
theorem slowTick_eq (s : State) :
    slowTick s = { s.setTimer s.params.slowTimer
      { s.timer s.params.slowTimer with cnt := truncTo (s.width s.params.slowTimer) s.params.preloadSlow }
      with delayTickCount := s.delayTickCount + 1 } := by
  simp [slowTick, mgrSetval, driverSetval]
  rfl

/-- What invoking a handle can do (44_sequencer.md R230). -/
theorem invoke_cases (h : Code) (s : State) :
    h = nullHandle ∧ invoke h s = .ok s ∨ h = fastHandle ∧ invoke h s = .ok (fastTick s) ∨
      h = slowHandle ∧ invoke h s = .ok (slowTick s) ∨ h = abortHandle ∧ invoke h s = .ok (abort s) ∨
      4 ≤ h.toNat ∧ invoke h s = .error .opaqueCallback := by
  have key : ∀ h : Code, h.toNat = 0 ∧ h = nullHandle ∨ h.toNat = 1 ∧ h = fastHandle ∨
      h.toNat = 2 ∧ h = slowHandle ∨ h.toNat = 3 ∧ h = abortHandle ∨
      4 ≤ h.toNat ∧ h.toNat ≠ 0 ∧ h.toNat ≠ 1 ∧ h.toNat ≠ 2 ∧ h.toNat ≠ 3 := by decide
  rcases key h with ⟨hn, he⟩ | ⟨hn, he⟩ | ⟨hn, he⟩ | ⟨hn, he⟩ | ⟨hn, h0, h1, h2, h3⟩
  · exact .inl ⟨he, by simp [invoke, hn]⟩
  · exact .inr (.inl ⟨he, by simp [invoke, hn]⟩)
  · exact .inr (.inr (.inl ⟨he, by simp [invoke, hn]⟩))
  · exact .inr (.inr (.inr (.inl ⟨he, by simp [invoke, hn]⟩)))
  · refine .inr (.inr (.inr (.inr ⟨hn, ?_⟩)))
    unfold invoke
    split <;> first | contradiction | rfl

/-- What taking an interrupt can do (60_exceptions.md R312 to R314, R306). -/
theorem dispatch_cases (src : IrqSource) (s : State) :
    irqSlot src s = nullHandle ∧ dispatch src s = clearFlag src s ∨
      irqSlot src s = fastHandle ∧ dispatch src s = fastTick (clearFlag src s) ∨
      irqSlot src s = slowHandle ∧ dispatch src s = slowTick (clearFlag src s) ∨
      irqSlot src s = abortHandle ∧ dispatch src s = abort (clearFlag src s) ∨
      4 ≤ (irqSlot src s).toNat ∧ dispatch src s = raise .opaqueCallback s := by
  rcases invoke_cases (irqSlot src s) (clearFlag src s) with h | h | h | h | h
  · exact .inl ⟨h.1, by rw [dispatch, h.2]⟩
  · exact .inr (.inl ⟨h.1, by rw [dispatch, h.2]⟩)
  · exact .inr (.inr (.inl ⟨h.1, by rw [dispatch, h.2]⟩))
  · exact .inr (.inr (.inr (.inl ⟨h.1, by rw [dispatch, h.2]⟩)))
  · exact .inr (.inr (.inr (.inr ⟨h.1, by rw [dispatch, h.2]⟩)))

/-- A dispatch condition spelled out (60_exceptions.md R311). -/
theorem irqEnabled_iff (src : IrqSource) (s : State) :
    irqEnabled src s = true ↔
      s.gie = true ∧ irqFlag src s = true ∧ irqEnable src s = true ∧ s.refused = none := by
  simp [irqEnabled, live, and_assoc]

theorem tickEnabled_iff (t : TimerId) (s : State) :
    tickEnabled t s = true ↔ s.refused = none ∧ (s.timer t).cs ≠ .off := by
  simp [tickEnabled, live, running]

theorem live_iff (s : State) : live s = true ↔ s.refused = none := by simp [live]

/-- What a clock edge can do to a running timer (41_timer_counter.md R160 to R165). -/
theorem tick_cases (t : TimerId) (s : State) :
    (s.timer t).wgm = .normal ∧ tick t s = s.setTimer t (tickNormal (s.width t) (s.timer t)) ∨
      (s.timer t).wgm = .ctc ∧ tick t s = s.setTimer t (tickCtc (s.width t) (s.timer t)) ∨
      ((s.timer t).wgm = .pcpwm ∨ (s.timer t).wgm = .fpwm) ∧
        tick t s = raise .pwmCountingNotModelled s := by
  cases h : (s.timer t).wgm <;> simp [tick, h]

/-- The step of an agent happens exactly when it is enabled (60_exceptions.md R304.3). -/
theorem whenEnabled_next {b : Bool} {s s' : State} :
    whenEnabled b s = .next s' ↔ b = true ∧ s = s' := by
  cases b <;> simp [whenEnabled]

end Sys2Proof.Machine
end

