-- ==== Sys2Proof/Laws/Step.lean ====
section
/-! SUPPORT. What a step can do: the effects of a command, of an event, of the main context, and of the
step itself, each said once. -/

namespace Sys2Proof.Machine

/-- Everything a command of the main context can do to a state (40_timer_driver.md, 42_timer_manager.md,
43_exti.md): fail with a result code, or write one timer, one line, VAL or I, and RES. -/
inductive CommandEffect (s : State) : State → Prop where
  | failed (c : ResultCode) (hc : c ≠ .ok) : CommandEffect s { s with res := c }
  | init (t : TimerId) (m : WaveMode) (b c : Code) (cv ic : Half) (cb : Code) :
    CommandEffect s { s.setTimer t (configured (s.width t) m b c cv ic cb) with res := .ok }
  | callback (t : TimerId) (h : Code) :
    CommandEffect s { s.setTimer t { s.timer t with cb := h } with res := .ok }
  | start (t : TimerId) (c : Clock) (hc : clockAccepted s.params.t2ExternalClock t c) :
    CommandEffect s { s.setTimer t { s.timer t with cs := c } with gie := true, res := .ok }
  | stop (t : TimerId) :
    CommandEffect s { s.setTimer t { s.timer t with cs := .off } with res := .ok }
  | count (t : TimerId) (v : Half) :
    CommandEffect s { s.setTimer t { s.timer t with cnt := truncTo (s.width t) v } with res := .ok }
  | clear (t : TimerId) :
    CommandEffect s
      { s.setTimer t { TimerRegs.reset with cb := (s.timer t).cb } with res := .ok }
  | read (v : Half) : CommandEffect s { s with val := v, res := .ok }
  | line (l : Line) (en : Bool) (edge : EdgeMode) (xcb : Code) :
    CommandEffect s
      { s.setLine l { s.line l with en := en, edge := edge, xcb := xcb } with res := .ok }

theorem issue_driverInit (p : Bool) (id a b c : Code) (cv ic : Half) (s : State) :
    CommandEffect s (issue (driverInit p id a b c cv ic s)) := by
  rcases driverInit_cases p id a b c cv ic s with e | ⟨t, m, -, -, -, -, e⟩ <;> rw [e]
  · exact .failed .nok (by decide)
  · exact .init t m b c cv ic _

theorem issue_driverSetcb (id h : Code) (s : State) :
    CommandEffect s (issue (driverSetcb id h s)) := by
  rcases driverSetcb_cases id h s with ⟨e, -⟩ | ⟨e, -⟩ | ⟨t, -, -, e⟩ <;> rw [e]
  · exact .failed .nullPtr (by decide)
  · exact .failed .nok (by decide)
  · exact .callback t h

theorem issue_driverStart (id a : Code) (s : State) :
    CommandEffect s (issue (driverStart id a s)) := by
  rcases driverStart_cases id a s with e | ⟨t, c, -, -, hc, e⟩ <;> rw [e]
  · exact .failed .nok (by decide)
  · exact .start t c hc

theorem issue_driverStop (id : Code) (s : State) :
    CommandEffect s (issue (driverStop id s)) := by
  rcases driverStop_cases id s with e | ⟨t, -, e⟩ <;> rw [e]
  · exact .failed .nok (by decide)
  · exact .stop t

theorem issue_driverSetval (id : Code) (v : Half) (s : State) :
    CommandEffect s (issue (driverSetval id v s)) := by
  rcases driverSetval_cases id v s with e | ⟨t, -, e⟩ <;> rw [e]
  · exact .failed .nok (by decide)
  · exact .count t v

theorem issue_driverReset (id : Code) (s : State) :
    CommandEffect s (issue (driverReset id s)) := by
  rcases driverReset_cases id s with e | ⟨t, -, e⟩ <;> rw [e]
  · exact .failed .nok (by decide)
  · exact .clear t

theorem issue_driverRdcnt (id : Code) (s : State) :
    CommandEffect s (issue (driverRdcnt id s)) := by
  rcases driverRdcnt_cases id s with e | ⟨t, -, e⟩ <;> rw [e]
  · exact .failed .nok (by decide)
  · exact .read _

theorem issue_mgrInit (p : Bool) (id a b c h : Code) (cv ic : Half) (s : State) :
    CommandEffect s (issue (mgrInit p id a b c h cv ic s)) := by
  rcases mgrInit_cases p id a b c h cv ic s with ⟨e, -⟩ | ⟨e, -⟩ | ⟨t, m, -, -, -, -, e⟩ <;> rw [e]
  · exact .failed .nullPtr (by decide)
  · exact .failed .nok (by decide)
  · exact .init t m b c cv ic _

theorem issue_mgrStart (id a : Code) (s : State) : CommandEffect s (issue (mgrStart id a s)) := by
  rw [mgrStart_eq]; exact issue_driverStart id a s

theorem issue_mgrStop (id : Code) (s : State) : CommandEffect s (issue (mgrStop id s)) := by
  rw [mgrStop_eq]; exact issue_driverStop id s

theorem issue_mgrSetval (id : Code) (v : Half) (s : State) :
    CommandEffect s (issue (mgrSetval id v s)) := by
  rw [mgrSetval_eq]; exact issue_driverSetval id v s

theorem issue_extInit (p : Bool) (id a h : Code) (s : State) :
    CommandEffect s (issue (extInit p id a h s)) := by
  rcases extInit_cases p id a h s with ⟨e, -⟩ | ⟨e, -⟩ | ⟨l, m, -, -, -, -, -, e⟩ <;> rw [e]
  · exact .failed .nullPtr (by decide)
  · exact .failed .nok (by decide)
  · exact .line l (s.line l).en m h

theorem issue_extEnable (id : Code) (s : State) : CommandEffect s (issue (extEnable id s)) := by
  rcases extEnable_cases id s with e | ⟨l, -, e⟩ <;> rw [e]
  · exact .failed .nok (by decide)
  · exact .line l true (s.line l).edge (s.line l).xcb

theorem issue_extDisable (id : Code) (s : State) : CommandEffect s (issue (extDisable id s)) := by
  rcases extDisable_cases id s with e | ⟨l, -, e⟩ <;> rw [e]
  · exact .failed .nok (by decide)
  · exact .line l false (s.line l).edge (s.line l).xcb

theorem issue_extSetcb (id h : Code) (s : State) : CommandEffect s (issue (extSetcb id h s)) := by
  rcases extSetcb_cases id h s with ⟨e, -⟩ | ⟨e, -⟩ | ⟨l, -, -, e⟩ <;> rw [e]
  · exact .failed .nullPtr (by decide)
  · exact .failed .nok (by decide)
  · exact .line l (s.line l).en (s.line l).edge h

/-- What exec answers for a command: always a next state, of one of the effects. -/
theorem exec_command (i : Instr) (s : State) (h : i.isEvent = false) :
    ∃ s', exec i s = .next s' ∧ CommandEffect s s' := by
  cases i
  case tmrInit p id a b c h' cv ic => exact ⟨_, rfl, issue_driverInit p id a b c cv ic s⟩
  case tmrSetcb id h' => exact ⟨_, rfl, issue_driverSetcb id h' s⟩
  case tmrStart id a => exact ⟨_, rfl, issue_driverStart id a s⟩
  case tmrStop id => exact ⟨_, rfl, issue_driverStop id s⟩
  case tmrSetval id v => exact ⟨_, rfl, issue_driverSetval id v s⟩
  case tmrReset id => exact ⟨_, rfl, issue_driverReset id s⟩
  case tmrRdcnt id => exact ⟨_, rfl, issue_driverRdcnt id s⟩
  case tmgrInit p id a b c h' cv ic => exact ⟨_, rfl, issue_mgrInit p id a b c h' cv ic s⟩
  case tmgrStart id a => exact ⟨_, rfl, issue_mgrStart id a s⟩
  case tmgrStop id => exact ⟨_, rfl, issue_mgrStop id s⟩
  case tmgrSetval id v => exact ⟨_, rfl, issue_mgrSetval id v s⟩
  case extiInit p id a h' => exact ⟨_, rfl, issue_extInit p id a h' s⟩
  case extiEnable id => exact ⟨_, rfl, issue_extEnable id s⟩
  case extiDisable id => exact ⟨_, rfl, issue_extDisable id s⟩
  case extiSetcb id h' => exact ⟨_, rfl, issue_extSetcb id h' s⟩
  all_goals simp [Instr.isEvent, Instr.op, Op.format] at h

/-- The main context runs a command by the meaning exec gives it. -/
theorem runCommand_eq (i : Instr) (s : State) (h : i.isEvent = false) :
    runCommand i s = exec i s := by
  cases i <;> first | rfl | simp [Instr.isEvent, Instr.op, Op.format] at h

/-- What a timer event can answer. -/
theorem exec_evTick {id : Code} {s s' : State} :
    exec (.evTick id) s = .next s' ↔
      ∃ t, id = timerCode t ∧ s.refused = none ∧ (s.timer t).cs ≠ .off ∧ s' = tick t s := by
  constructor
  · intro h
    simp only [exec, execEvTick] at h
    split at h
    · cases h
    · next t ht =>
      obtain ⟨he, rfl⟩ := whenEnabled_next.1 h
      obtain ⟨hr, hc⟩ := (tickEnabled_iff t s).1 he
      exact ⟨t, timerCode_of_timerOf ht, hr, hc, rfl⟩
  · rintro ⟨t, rfl, hr, hc, rfl⟩
    simp only [exec, execEvTick, timerOf_timerCode]
    exact whenEnabled_next.2 ⟨(tickEnabled_iff t s).2 ⟨hr, hc⟩, rfl⟩

/-- What an edge event can answer. -/
theorem exec_evExtrig {id : Code} {s s' : State} :
    exec (.evExtrig id) s = .next s' ↔
      ∃ l, id = lineCode l ∧ s.refused = none ∧
        s' = s.setLine l { s.line l with intf := true } := by
  constructor
  · intro h
    simp only [exec, execEvExtrig] at h
    split at h
    · cases h
    · next l hl =>
      obtain ⟨he, rfl⟩ := whenEnabled_next.1 h
      exact ⟨l, lineCode_of_lineOf hl, (live_iff s).1 he, rfl⟩
  · rintro ⟨l, rfl, hr, rfl⟩
    simp only [exec, execEvExtrig, lineOf_lineCode]
    exact whenEnabled_next.2 ⟨(live_iff s).2 hr, rfl⟩

/-- What an interrupt event can answer. -/
theorem exec_evIrq {a : Code} {s s' : State} :
    exec (.evIrq a) s = .next s' ↔
      ∃ src, a = sourceCode src ∧ irqEnabled src s = true ∧ s' = dispatch src s := by
  constructor
  · intro h
    simp only [exec, execEvIrq] at h
    split at h
    · cases h
    · next src hs =>
      obtain ⟨he, rfl⟩ := whenEnabled_next.1 h
      exact ⟨src, sourceCode_of_sourceOf hs, he, rfl⟩
  · rintro ⟨src, rfl, he, rfl⟩
    simp only [exec, execEvIrq, sourceOf_sourceCode]
    exact whenEnabled_next.2 ⟨he, rfl⟩

/-- What the button event can answer. -/
theorem exec_evButton {v : Bool} {s s' : State} :
    exec (.evButton v) s = .next s' ↔ s.refused = none ∧ s' = { s with btn := v } := by
  constructor
  · intro h
    obtain ⟨he, rfl⟩ := whenEnabled_next.1 h
    exact ⟨(live_iff s).1 he, rfl⟩
  · rintro ⟨hr, rfl⟩
    exact whenEnabled_next.2 ⟨(live_iff s).2 hr, rfl⟩

/-- What EV.MAIN can answer: a micro-step of the firmware, a command with PC moved past it, or a
refusal of the word at PC (30_encoding.md R104, 60_exceptions.md R306). -/
theorem exec_evMain {s s' : State} (h : exec .evMain s = .next s') :
    s.refused = none ∧
      (s.mainProgram = .application ∧ s' = microStep s ∨
        ∃ words, s.mainProgram = .driverProgram words ∧
          ((∃ s1 n, CommandEffect s s1 ∧ s' = { s1 with pc := n }) ∨ ∃ r, s' = raise r s)) := by
  simp only [exec, execEvMain] at h
  split at h
  · next he =>
    have hr : s.refused = none := by
      simp only [mainEnabled, Bool.and_eq_true] at he
      exact (live_iff s).1 he.1
    refine ⟨hr, ?_⟩
    split at h
    · next words hw =>
      refine .inr ⟨words, hw, ?_⟩
      unfold programStep at h
      split at h
      · cases h
      · split at h
        · cases h; exact .inr ⟨_, rfl⟩
        · next i _ =>
          split at h
          · cases h; exact .inr ⟨_, rfl⟩
          · next hev =>
            rw [runCommand_eq i s (by simpa using hev)] at h
            obtain ⟨s1, h1, he1⟩ := exec_command i s (by simpa using hev)
            rw [h1] at h
            cases h
            exact .inl ⟨s1, _, he1, rfl⟩
    · next hm => cases h; exact .inl ⟨hm, rfl⟩
  · cases h

/-- The main context in Application mode performs the micro-step at SPC. -/
theorem exec_evMain_application {s : State} (hr : s.refused = none)
    (hm : s.mainProgram = .application) : exec .evMain s = .next (microStep s) := by
  simp [exec, execEvMain, mainEnabled, mainHasStep, live, hr, hm]

/-- A fetch changes only the trace and the choice counter, and answers an event. -/
theorem fetch_ok {s s' : State} {i : Instr} (h : fetch s = .ok (i, s')) :
    i.isEvent = true ∧ ∃ tr n, s' = { s with trace := tr, choices := n } := by
  unfold fetch at h
  split at h
  · next w rest ht =>
    split at h
    · cases h
    · next j hj =>
      cases h
      refine ⟨?_, rest, s.choices, rfl⟩
      unfold eventOfWord at hj
      split at hj
      · cases hj
      · split at hj
        · cases hj; assumption
        · cases hj
  · next ht =>
    split at h
    · cases h
    · next j hj =>
      cases h
      refine ⟨?_, s.trace, s.choices + 1, rfl⟩
      have hmem : i ∈ enabledEvents s := List.mem_of_getElem? hj
      have hall : ∀ j ∈ allEvents, j.isEvent = true := by decide
      exact hall i (List.mem_of_mem_filter hmem)

/-- A step is the meaning of some event in the state with the trace or the choice used up. -/
theorem step_next {s s' : State} (h : step s = .next s') :
    ∃ i tr n, i.isEvent = true ∧ exec i { s with trace := tr, choices := n } = .next s' := by
  unfold step at h
  split at h
  · cases h
  · next i s1 hf =>
    obtain ⟨he, tr, n, rfl⟩ := fetch_ok hf
    exact ⟨i, tr, n, he, h⟩

end Sys2Proof.Machine
end

