-- ==== Sys2Proof/Laws/Effects.lean ====
section
/-! SUPPORT. What an instruction and a micro-step of the firmware can do, each said once, with the frames
that follow from it. -/

namespace Sys2Proof.Machine

/-- The dispatch of a source by its own code (60_exceptions.md R311, R312). -/
theorem exec_evIrq_source (src : IrqSource) (s s' : State) :
    exec (.evIrq (sourceCode src)) s = .next s' ↔ irqEnabled src s = true ∧ s' = dispatch src s := by
  rw [exec_evIrq]
  constructor
  · rintro ⟨src', h, h1, h2⟩
    have : src = src' := by
      have := congrArg sourceOf h
      simpa using this
    subst this
    exact ⟨h1, h2⟩
  · rintro ⟨h1, h2⟩
    exact ⟨src, rfl, h1, h2⟩

/-- Everything an instruction that answers a next state can do (10_state.md R30). -/
inductive ExecEffect (s : State) : Instr → State → Prop where
  | command (i : Instr) (s' : State) (hi : i.isEvent = false) (hc : CommandEffect s s') :
    ExecEffect s i s'
  | tick (t : TimerId) (hr : s.refused = none) (hc : (s.timer t).cs ≠ .off) :
    ExecEffect s (.evTick (timerCode t)) (tick t s)
  | edge (l : Line) (hr : s.refused = none) :
    ExecEffect s (.evExtrig (lineCode l)) (s.setLine l { s.line l with intf := true })
  | dispatch (src : IrqSource) (he : irqEnabled src s = true) :
    ExecEffect s (.evIrq (sourceCode src)) (dispatch src s)
  | button (v : Bool) (hr : s.refused = none) : ExecEffect s (.evButton v) { s with btn := v }
  | micro (hr : s.refused = none) (hm : s.mainProgram = .application) :
    ExecEffect s .evMain (microStep s)
  | program (words : List Word) (s' : State) (n : Nat) (hr : s.refused = none)
    (hm : s.mainProgram = .driverProgram words) (hc : CommandEffect s s') :
    ExecEffect s .evMain { s' with pc := n }
  | badWord (words : List Word) (r : RefusalReason) (hr : s.refused = none)
    (hm : s.mainProgram = .driverProgram words) : ExecEffect s .evMain (raise r s)

theorem exec_effect {i : Instr} {s s' : State} (h : exec i s = .next s') : ExecEffect s i s' := by
  by_cases he : i.isEvent = true
  · cases i
    any_goals first | (simp [Instr.isEvent, Instr.op, Op.format] at he; done) | skip
    case evTick => obtain ⟨t, rfl, h1, h2, rfl⟩ := exec_evTick.1 h; exact .tick t h1 h2
    case evExtrig => obtain ⟨l, rfl, h1, rfl⟩ := exec_evExtrig.1 h; exact .edge l h1
    case evIrq => obtain ⟨src, rfl, h1, rfl⟩ := exec_evIrq.1 h; exact .dispatch src h1
    case evButton => obtain ⟨h1, rfl⟩ := exec_evButton.1 h; exact .button _ h1
    case evMain =>
      obtain ⟨hr, ⟨hm, rfl⟩ | ⟨ws, hm, ⟨s1, n, hc, rfl⟩ | ⟨r, rfl⟩⟩⟩ := exec_evMain h
      · exact .micro hr hm
      · exact .program ws s1 n hr hm hc
      · exact .badWord ws r hr hm
  · have he : i.isEvent = false := by simpa using he
    obtain ⟨s1, h1, h2⟩ := exec_command i s he
    rw [h1] at h
    cases h
    exact .command i _ he h2

/-- Emit a list of output events, oldest first. -/
def emitAll (os : List OutEvent) (s : State) : State := os.foldl (fun s o => emit o s) s

theorem emitAll_eq (os : List OutEvent) (s : State) :
    ∃ m ls, emitAll os s = { s with out := s.out ++ os, motor := m, leds := ls } := by
  unfold emitAll
  induction os generalizing s with
  | nil => exact ⟨s.motor, s.leds, by simp⟩
  | cons o os ih =>
    obtain ⟨m, ls, h⟩ := ih (emit o s)
    refine ⟨m, ls, ?_⟩
    rw [List.foldl_cons, h]
    simp [emit]

/-- Everything a micro-step can do (44_sequencer.md R236 to R263): one command of a manager, or no
command, some output events, and constants or samples into the locals, the counters and runState. -/
inductive MicroEffect (s : State) : State → Prop where
  | command (s1 : State) (l : Label) (hc : CommandEffect s s1) : MicroEffect s { s1 with spc := l }
  | plain (os : List OutEvent) (l : Label) (d p : Byte) (k : Maneuver) (pwm delay : Byte)
    (rs : RunState) (hp : pwm = s.pwmTickCount ∨ pwm = 0)
    (hd : delay = s.delayTickCount ∨ delay = 0 ∨ delay = s.params.wrapTo)
    (hr : rs = s.runState ∨ (rs = .running ∧ s.spc = .sRun)) :
    MicroEffect s { emitAll os s with
      spc := l, d := d, p := p, k := k, pwmTickCount := pwm, delayTickCount := delay, runState := rs }

/-- A plain micro-step that keeps the counters and runState. -/
theorem MicroEffect.keep {s : State} (os : List OutEvent) (l : Label) (d p : Byte) (k : Maneuver) :
    MicroEffect s { emitAll os s with
      spc := l, d := d, p := p, k := k, pwmTickCount := s.pwmTickCount
      delayTickCount := s.delayTickCount, runState := s.runState } :=
  .plain os l d p k _ _ _ (.inl rfl) (.inl rfl) (.inl rfl)

theorem microStep_effect (s : State) : MicroEffect s (microStep s) := by
  unfold microStep
  split
  case h_1 => exact .command _ _ (issue_mgrInit _ _ _ _ _ _ _ _ _)
  case h_2 => exact .command _ _ (issue_mgrInit _ _ _ _ _ _ _ _ _)
  case h_3 => exact .command _ _ (issue_extInit _ _ _ _ _)
  case h_4 =>
    unfold stepLoop
    split
    · exact .keep [] .sExtiDis s.d s.p s.k
    · exact .keep [] .rExtiEn s.d s.p s.k
  case h_5 => exact .command _ _ (issue_extDisable _ _)
  case h_6 => exact .command _ _ (issue_mgrStop _ _)
  case h_7 => exact .keep [.carStop] .sLed s.d s.p s.k
  case h_8 => exact .keep [.led .stop true] .sPoll s.d s.p s.k
  case h_9 =>
    unfold stepSPoll
    split
    · exact .keep [] .sRun s.d s.p s.k
    · exact .keep [] .loop s.d s.p s.k
  case h_10 h =>
    exact .plain [] .sZero s.d s.p s.k s.pwmTickCount s.delayTickCount .running (.inl rfl) (.inl rfl)
      (.inr ⟨rfl, h⟩)
  case h_11 =>
    exact .plain [] .loop s.d s.p s.k s.pwmTickCount 0 s.runState (.inl rfl) (.inr (.inl rfl)) (.inl rfl)
  case h_12 => exact .command _ _ (issue_extEnable _ _)
  case h_13 => exact .command _ _ (issue_mgrStart _ _ _)
  case h_14 => exact .keep [] .rDispatch s.delayTickCount s.p s.k
  case h_15 =>
    unfold stepRDispatch
    split
    · exact .keep [] .loop s.d s.p s.k
    · split
      · exact .keep [] .rWrap s.d s.p s.k
      · split
        · exact .keep [] .loop s.d s.p s.k
        · next k _ => exact .keep [] .mLed s.d s.p k
  case h_16 =>
    exact .plain [] .loop s.d s.p s.k s.pwmTickCount s.params.wrapTo s.runState (.inl rfl) (.inr (.inr rfl)) (.inl rfl)
  case h_17 =>
    exact .keep [.led .shortSide (s.k == .shortSide), .led .longSide (s.k == .longSide),
      .led .rotate (s.k == .rotate), .led .stop (s.k == .stop)] _ s.d s.p s.k
  case h_18 => exact .keep [.carStop] .loop s.d s.p s.k
  case h_19 =>
    exact .plain [] .mFstart s.d s.p s.k 0 s.delayTickCount s.runState (.inr rfl) (.inl rfl) (.inl rfl)
  case h_20 => exact .command _ _ (issue_mgrStart _ _ _)
  case h_21 => exact .keep [] _ s.d s.pwmTickCount s.k
  case h_22 =>
    unfold stepMOncmd
    cases onCommand s.k with
    | none => exact .keep [] .mOn s.d s.p s.k
    | some o => exact .keep [o] .mOn s.d s.p s.k
  case h_23 => exact .keep [] _ s.d s.pwmTickCount s.k
  case h_24 => exact .keep [.carStop] .mOff s.d s.p s.k
  case h_25 => exact .command _ _ (issue_mgrStop _ _)
  case h_26 =>
    exact .plain [] .loop s.d s.p s.k 0 s.delayTickCount s.runState (.inr rfl) (.inl rfl) (.inl rfl)

/-! ### Frames -/

/-- What no command touches. -/
structure CommandFrame (s s' : State) : Prop where
  params : s'.params = s.params
  mainProgram : s'.mainProgram = s.mainProgram
  trace : s'.trace = s.trace
  choices : s'.choices = s.choices
  out : s'.out = s.out
  motor : s'.motor = s.motor
  leds : s'.leds = s.leds
  btn : s'.btn = s.btn
  refused : s'.refused = s.refused
  pwmTickCount : s'.pwmTickCount = s.pwmTickCount
  delayTickCount : s'.delayTickCount = s.delayTickCount
  runState : s'.runState = s.runState
  pc : s'.pc = s.pc
  spc : s'.spc = s.spc
  d : s'.d = s.d
  p : s'.p = s.p
  k : s'.k = s.k

theorem CommandEffect.frame {s s' : State} (h : CommandEffect s s') : CommandFrame s s' := by
  cases h <;> constructor <;> rfl

/-- What no clock edge touches. -/
theorem tick_frame (t : TimerId) (s : State) :
    ∃ ts r, tick t s = { s with timers := ts, refused := r } := by
  rcases tick_cases t s with ⟨-, e⟩ | ⟨-, e⟩ | ⟨-, e⟩ <;> rw [e]
  · exact ⟨_, s.refused, rfl⟩
  · exact ⟨_, s.refused, rfl⟩
  · exact ⟨s.timers, _, rfl⟩

/-- What no dispatch touches (60_exceptions.md R316). -/
theorem dispatch_frame (src : IrqSource) (s : State) :
    ∃ ts ls pwm delay rs r, dispatch src s =
      { s with timers := ts, lines := ls, pwmTickCount := pwm, delayTickCount := delay,
               runState := rs, refused := r } := by
  have hc : ∃ ts ls, clearFlag src s = { s with timers := ts, lines := ls } := by
    cases src <;> exact ⟨_, _, rfl⟩
  obtain ⟨ts, ls, hc⟩ := hc
  rcases dispatch_cases src s with ⟨-, e⟩ | ⟨-, e⟩ | ⟨-, e⟩ | ⟨-, e⟩ | ⟨-, e⟩ <;> rw [e]
  · rw [hc]; exact ⟨_, _, _, _, _, _, rfl⟩
  · rw [hc, fastTick_eq]; exact ⟨_, _, _, _, _, _, rfl⟩
  · rw [hc, slowTick_eq]; exact ⟨_, _, _, _, _, _, rfl⟩
  · rw [hc]; exact ⟨_, _, _, _, _, _, rfl⟩
  · exact ⟨_, _, _, _, _, _, rfl⟩

/-- A property of every timer's registers after one timer is written. -/
theorem forall_timer_setTimer {P : TimerId → TimerRegs → Prop} {s : State}
    {t : TimerId} {r : TimerRegs} (h1 : P t r) (h2 : ∀ u, P u (s.timer u)) :
    ∀ u, P u ((s.setTimer t r).timer u) := by
  intro u
  by_cases h : u = t
  · subst h; simpa using h1
  · rw [timer_setTimer_other _ _ _ _ h]; exact h2 u

end Sys2Proof.Machine
end

