-- ==== Sys2Proof/Laws/Encoding.lean ====
section
/-! SUPPORT. The fields of a packed word, the fields of a masked word, a word from its fields, and the
byte view. -/

namespace Sys2Proof

/-- Bits 2:0, reserved (30_encoding.md R92). -/
def fieldZ (w : Word) : BitVec 3 := w.extractLsb' 0 3

/-! ### Fields of a packed word -/

@[simp] theorem fieldU_packWord (u op id a b c h : Code) (p : Bool) :
    fieldU (packWord u op id a b c h p) = u := by
  unfold fieldU packWord
  iterate 8 rw [BitVec.extractLsb'_append_eq_of_le (by decide)]
  exact BitVec.extractLsb'_eq_self

@[simp] theorem fieldOP_packWord (u op id a b c h : Code) (p : Bool) :
    fieldOP (packWord u op id a b c h p) = op := by
  unfold fieldOP packWord
  iterate 7 rw [BitVec.extractLsb'_append_eq_of_le (by decide)]
  rw [BitVec.extractLsb'_append_eq_of_add_le (by decide)]
  exact BitVec.extractLsb'_eq_self

@[simp] theorem fieldID_packWord (u op id a b c h : Code) (p : Bool) :
    fieldID (packWord u op id a b c h p) = id := by
  unfold fieldID packWord
  iterate 6 rw [BitVec.extractLsb'_append_eq_of_le (by decide)]
  rw [BitVec.extractLsb'_append_eq_of_add_le (by decide)]
  exact BitVec.extractLsb'_eq_self

@[simp] theorem fieldA_packWord (u op id a b c h : Code) (p : Bool) :
    fieldA (packWord u op id a b c h p) = a := by
  unfold fieldA packWord
  iterate 5 rw [BitVec.extractLsb'_append_eq_of_le (by decide)]
  rw [BitVec.extractLsb'_append_eq_of_add_le (by decide)]
  exact BitVec.extractLsb'_eq_self

@[simp] theorem fieldB_packWord (u op id a b c h : Code) (p : Bool) :
    fieldB (packWord u op id a b c h p) = b := by
  unfold fieldB packWord
  iterate 4 rw [BitVec.extractLsb'_append_eq_of_le (by decide)]
  rw [BitVec.extractLsb'_append_eq_of_add_le (by decide)]
  exact BitVec.extractLsb'_eq_self

@[simp] theorem fieldC_packWord (u op id a b c h : Code) (p : Bool) :
    fieldC (packWord u op id a b c h p) = c := by
  unfold fieldC packWord
  iterate 3 rw [BitVec.extractLsb'_append_eq_of_le (by decide)]
  rw [BitVec.extractLsb'_append_eq_of_add_le (by decide)]
  exact BitVec.extractLsb'_eq_self

@[simp] theorem fieldH_packWord (u op id a b c h : Code) (p : Bool) :
    fieldH (packWord u op id a b c h p) = h := by
  unfold fieldH packWord
  iterate 2 rw [BitVec.extractLsb'_append_eq_of_le (by decide)]
  rw [BitVec.extractLsb'_append_eq_of_add_le (by decide)]
  exact BitVec.extractLsb'_eq_self

@[simp] theorem fieldP_packWord (u op id a b c h : Code) (p : Bool) :
    fieldP (packWord u op id a b c h p) = p := by
  unfold fieldP packWord
  rw [BitVec.getLsbD_append, BitVec.getLsbD_append]
  cases p <;> rfl

@[simp] theorem fieldCV_packExt (cv ic : Half) : fieldCV (packExt cv ic) = cv := by
  unfold fieldCV packExt
  rw [BitVec.extractLsb'_append_eq_of_le (by decide)]
  exact BitVec.extractLsb'_eq_self

@[simp] theorem fieldIC_packExt (cv ic : Half) : fieldIC (packExt cv ic) = ic := by
  unfold fieldIC packExt
  rw [BitVec.extractLsb'_append_eq_of_add_le (by decide)]
  exact BitVec.extractLsb'_eq_self

/-! ### A word from its fields -/

theorem packWord_fields (w : Word) (hz : fieldZ w = 0) :
    packWord (fieldU w) (fieldOP w) (fieldID w) (fieldA w) (fieldB w) (fieldC w) (fieldH w)
      (fieldP w) = w := by
  have hp : BitVec.ofBool (fieldP w) = w.extractLsb' 3 1 := by
    apply BitVec.eq_of_getLsbD_eq
    intro i hi
    have : i = 0 := by omega
    subst this
    simp [fieldP]
  unfold packWord
  rw [hp, show (0#3) = w.extractLsb' 0 3 from hz.symm]
  unfold fieldU fieldOP fieldID fieldA fieldB fieldC fieldH
  rw [BitVec.extractLsb'_append_extractLsb'_eq_extractLsb' (by decide),
    BitVec.extractLsb'_append_extractLsb'_eq_extractLsb' (by decide),
    BitVec.extractLsb'_append_extractLsb'_eq_extractLsb' (by decide),
    BitVec.extractLsb'_append_extractLsb'_eq_extractLsb' (by decide),
    BitVec.extractLsb'_append_extractLsb'_eq_extractLsb' (by decide),
    BitVec.extractLsb'_append_extractLsb'_eq_extractLsb' (by decide),
    BitVec.extractLsb'_append_extractLsb'_eq_extractLsb' (by decide),
    BitVec.extractLsb'_append_extractLsb'_eq_extractLsb' (by decide)]
  exact BitVec.extractLsb'_eq_self

theorem packExt_fields (x : Word) : packExt (fieldCV x) (fieldIC x) = x := by
  unfold packExt fieldCV fieldIC
  rw [BitVec.extractLsb'_append_extractLsb'_eq_extractLsb' (by decide)]
  exact BitVec.extractLsb'_eq_self

/-- Two words with the same fields are the same word. -/
theorem word_ext {v w : Word} (hu : fieldU v = fieldU w) (hop : fieldOP v = fieldOP w)
    (hid : fieldID v = fieldID w) (ha : fieldA v = fieldA w) (hb : fieldB v = fieldB w)
    (hc : fieldC v = fieldC w) (hh : fieldH v = fieldH w) (hp : fieldP v = fieldP w)
    (hz : fieldZ v = fieldZ w) : v = w := by
  have bit : ∀ (lo len i : Nat), lo ≤ i → i < lo + len →
      v.extractLsb' lo len = w.extractLsb' lo len → v.getLsbD i = w.getLsbD i := by
    intro lo len i h1 h2 h
    have := congrArg (fun x => x.getLsbD (i - lo)) h
    simpa [show i - lo < len by omega, show lo + (i - lo) = i by omega] using this
  apply BitVec.eq_of_getLsbD_eq
  intro i hi
  by_cases h1 : i < 3
  · exact bit 0 3 i (by omega) (by omega) hz
  by_cases h2 : i < 4
  · obtain rfl : i = 3 := by omega
    exact hp
  by_cases h3 : i < 8
  · exact bit 4 4 i (by omega) (by omega) hh
  by_cases h4 : i < 12
  · exact bit 8 4 i (by omega) (by omega) hc
  by_cases h5 : i < 16
  · exact bit 12 4 i (by omega) (by omega) hb
  by_cases h6 : i < 20
  · exact bit 16 4 i (by omega) (by omega) ha
  by_cases h7 : i < 24
  · exact bit 20 4 i (by omega) (by omega) hid
  by_cases h8 : i < 28
  · exact bit 24 4 i (by omega) (by omega) hop
  · exact bit 28 4 i (by omega) (by omega) hu

/-! ### Fields of a masked word -/

theorem extractLsb'_and {n : Nat} (lo len : Nat) (v w : BitVec n) :
    (v &&& w).extractLsb' lo len = v.extractLsb' lo len &&& w.extractLsb' lo len := by
  apply BitVec.eq_of_getLsbD_eq
  intro i hi
  simp [hi]

theorem fieldU_and (v w : Word) : fieldU (v &&& w) = fieldU v &&& fieldU w := by
  exact extractLsb'_and _ _ _ _

theorem fieldOP_and (v w : Word) : fieldOP (v &&& w) = fieldOP v &&& fieldOP w := by
  exact extractLsb'_and _ _ _ _

theorem fieldID_and (v w : Word) : fieldID (v &&& w) = fieldID v &&& fieldID w := by
  exact extractLsb'_and _ _ _ _

theorem fieldA_and (v w : Word) : fieldA (v &&& w) = fieldA v &&& fieldA w := by
  exact extractLsb'_and _ _ _ _

theorem fieldB_and (v w : Word) : fieldB (v &&& w) = fieldB v &&& fieldB w := by
  exact extractLsb'_and _ _ _ _

theorem fieldC_and (v w : Word) : fieldC (v &&& w) = fieldC v &&& fieldC w := by
  exact extractLsb'_and _ _ _ _

theorem fieldH_and (v w : Word) : fieldH (v &&& w) = fieldH v &&& fieldH w := by
  exact extractLsb'_and _ _ _ _

theorem fieldP_and (v w : Word) : fieldP (v &&& w) = (fieldP v && fieldP w) := by
  simp [fieldP]

theorem fieldZ_and (v w : Word) : fieldZ (v &&& w) = fieldZ v &&& fieldZ w := by
  exact extractLsb'_and _ _ _ _

@[simp] theorem fieldZ_packWord (u op id a b c h : Code) (p : Bool) :
    fieldZ (packWord u op id a b c h p) = 0 := by
  unfold fieldZ packWord
  rw [BitVec.extractLsb'_append_eq_of_add_le (by decide)]
  exact BitVec.extractLsb'_eq_self

@[simp] theorem code_and_ones : ∀ x : Code, x &&& 15#4 = x := by decide

@[simp] theorem code_and_zero : ∀ x : Code, x &&& 0#4 = 0#4 := by decide

/-- A word matches a mask and a pattern exactly when each of its fields does. -/
theorem and_eq_iff_fields (w m q : Word) : w &&& m = q ↔
    fieldU w &&& fieldU m = fieldU q ∧ fieldOP w &&& fieldOP m = fieldOP q ∧
      fieldID w &&& fieldID m = fieldID q ∧ fieldA w &&& fieldA m = fieldA q ∧
      fieldB w &&& fieldB m = fieldB q ∧ fieldC w &&& fieldC m = fieldC q ∧
      fieldH w &&& fieldH m = fieldH q ∧ (fieldP w && fieldP m) = fieldP q ∧
      fieldZ w &&& fieldZ m = fieldZ q := by
  constructor
  · rintro rfl
    simp only [fieldU_and, fieldOP_and, fieldID_and, fieldA_and, fieldB_and, fieldC_and, fieldH_and,
      fieldP_and, fieldZ_and, and_self]
  · rintro ⟨h1, h2, h3, h4, h5, h6, h7, h8, h9⟩
    apply word_ext <;>
      simp only [fieldU_and, fieldOP_and, fieldID_and, fieldA_and, fieldB_and, fieldC_and,
        fieldH_and, fieldP_and, fieldZ_and, h1, h2, h3, h4, h5, h6, h7, h8, h9]

/-! ### The byte view (20_memory.md R72) -/

/-- Storing a word as bytes and reading the bytes back gives the word. -/
@[simp] theorem wordOfBytes_bytes (w : Word) :
    wordOfBytes (w.extractLsb' 0 8) (w.extractLsb' 8 8) (w.extractLsb' 16 8) (w.extractLsb' 24 8)
      = w := by
  unfold wordOfBytes
  rw [BitVec.extractLsb'_append_extractLsb'_eq_extractLsb' (by decide),
    BitVec.extractLsb'_append_extractLsb'_eq_extractLsb' (by decide),
    BitVec.extractLsb'_append_extractLsb'_eq_extractLsb' (by decide)]
  exact BitVec.extractLsb'_eq_self

/-- Storing a 16-bit count as bytes and reading them back gives the count. -/
theorem halfOfBytes_bytes (h : Half) : halfOfBytes (h.extractLsb' 0 8) (h.extractLsb' 8 8) = h := by
  unfold halfOfBytes
  rw [BitVec.extractLsb'_append_extractLsb'_eq_extractLsb' (by decide)]
  exact BitVec.extractLsb'_eq_self

/-- Reading words back from their bytes. -/
theorem bytesToWords_wordToBytes (w : Word) (bs : List Byte) :
    bytesToWords (wordToBytes w ++ bs) = w :: bytesToWords bs := by
  simp [wordToBytes, bytesToWords]

/-- What decodeTableWord decodes: the words themselves. -/
theorem decodeTableWord_eq (nbits w : Nat) :
    decodeTableWord nbits w =
      (decode (tableWords nbits w).1 (some (tableWords nbits w).2)).toOption := by
  have h2 : wordToBytes (tableWords nbits w).2 = wordToBytes (tableWords nbits w).2 ++ [] := by simp
  rw [decodeTableWord, decodeBytes, h2, bytesToWords_wordToBytes, bytesToWords_wordToBytes]
  simp [decodeWords]

end Sys2Proof
end

