-- ==== Sys2Proof/Laws/PerInstr.lean ====
section
/-! SUPPORT. What holds of every instruction as syntax, one lemma per constructor. -/

namespace Sys2Proof.Laws.EncodingShape

/-- An instruction encodes to as many words as its format has (30_encoding.md R91), and its first word
is a word of its row under the row's mask (R102). -/
def Statement (i : Instr) : Prop :=
  (encode i).length = i.length ∧ ∃ w, (encode i).head? = some w ∧ w &&& i.op.mask = i.op.pattern

/-- A packed word matches a row when its fields do. -/
theorem row_match (o : Op) (u op id a b c h : Code) (p : Bool)
    (hf : u &&& fieldU o.mask = fieldU o.pattern ∧ op &&& fieldOP o.mask = fieldOP o.pattern ∧
      id &&& fieldID o.mask = fieldID o.pattern ∧ a &&& fieldA o.mask = fieldA o.pattern ∧
      b &&& fieldB o.mask = fieldB o.pattern ∧ c &&& fieldC o.mask = fieldC o.pattern ∧
      h &&& fieldH o.mask = fieldH o.pattern ∧ (p && fieldP o.mask) = fieldP o.pattern) :
    packWord u op id a b c h p &&& o.mask = o.pattern := by
  have hz : fieldZ o.pattern = 0 := by cases o <;> rfl
  rw [and_eq_iff_fields]
  simp only [fieldU_packWord, fieldOP_packWord, fieldID_packWord, fieldA_packWord, fieldB_packWord,
    fieldC_packWord, fieldH_packWord, fieldP_packWord, fieldZ_packWord, hz]
  obtain ⟨h1, h2, h3, h4, h5, h6, h7, h8⟩ := hf
  exact ⟨h1, h2, h3, h4, h5, h6, h7, h8, by simp⟩

theorem zero (x : Code) : x &&& 0 = 0 := code_and_zero x

theorem tmrInit (p : Bool) (id a b c h : Code) (cv ic : Half) :
    Statement (.tmrInit p id a b c h cv ic) :=
  ⟨rfl, _, rfl, row_match .tmrInit _ _ _ _ _ _ _ _
    ⟨rfl, rfl, zero id, zero a, zero b, zero c, zero h, Bool.and_false p⟩⟩

theorem tmrSetcb (id h : Code) : Statement (.tmrSetcb id h) :=
  ⟨rfl, _, rfl, row_match .tmrSetcb _ _ _ _ _ _ _ _
    ⟨rfl, rfl, zero id, rfl, rfl, rfl, zero h, rfl⟩⟩

theorem tmrStart (id a : Code) : Statement (.tmrStart id a) :=
  ⟨rfl, _, rfl, row_match .tmrStart _ _ _ _ _ _ _ _
    ⟨rfl, rfl, zero id, zero a, rfl, rfl, rfl, rfl⟩⟩

theorem tmrStop (id : Code) : Statement (.tmrStop id) :=
  ⟨rfl, _, rfl, row_match .tmrStop _ _ _ _ _ _ _ _ ⟨rfl, rfl, zero id, rfl, rfl, rfl, rfl, rfl⟩⟩

theorem tmrSetval (id : Code) (v : Half) : Statement (.tmrSetval id v) :=
  ⟨rfl, _, rfl, row_match .tmrSetval _ _ _ _ _ _ _ _ ⟨rfl, rfl, zero id, rfl, rfl, rfl, rfl, rfl⟩⟩

theorem tmrReset (id : Code) : Statement (.tmrReset id) :=
  ⟨rfl, _, rfl, row_match .tmrReset _ _ _ _ _ _ _ _ ⟨rfl, rfl, zero id, rfl, rfl, rfl, rfl, rfl⟩⟩

theorem tmrRdcnt (id : Code) : Statement (.tmrRdcnt id) :=
  ⟨rfl, _, rfl, row_match .tmrRdcnt _ _ _ _ _ _ _ _ ⟨rfl, rfl, zero id, rfl, rfl, rfl, rfl, rfl⟩⟩

theorem tmgrInit (p : Bool) (id a b c h : Code) (cv ic : Half) :
    Statement (.tmgrInit p id a b c h cv ic) :=
  ⟨rfl, _, rfl, row_match .tmgrInit _ _ _ _ _ _ _ _
    ⟨rfl, rfl, zero id, zero a, zero b, zero c, zero h, Bool.and_false p⟩⟩

theorem tmgrStart (id a : Code) : Statement (.tmgrStart id a) :=
  ⟨rfl, _, rfl, row_match .tmgrStart _ _ _ _ _ _ _ _
    ⟨rfl, rfl, zero id, zero a, rfl, rfl, rfl, rfl⟩⟩

theorem tmgrStop (id : Code) : Statement (.tmgrStop id) :=
  ⟨rfl, _, rfl, row_match .tmgrStop _ _ _ _ _ _ _ _ ⟨rfl, rfl, zero id, rfl, rfl, rfl, rfl, rfl⟩⟩

theorem tmgrSetval (id : Code) (v : Half) : Statement (.tmgrSetval id v) :=
  ⟨rfl, _, rfl, row_match .tmgrSetval _ _ _ _ _ _ _ _
    ⟨rfl, rfl, zero id, rfl, rfl, rfl, rfl, rfl⟩⟩

theorem extiInit (p : Bool) (id a h : Code) : Statement (.extiInit p id a h) :=
  ⟨rfl, _, rfl, row_match .extiInit _ _ _ _ _ _ _ _
    ⟨rfl, rfl, zero id, zero a, rfl, rfl, zero h, Bool.and_false p⟩⟩

theorem extiEnable (id : Code) : Statement (.extiEnable id) :=
  ⟨rfl, _, rfl, row_match .extiEnable _ _ _ _ _ _ _ _
    ⟨rfl, rfl, zero id, rfl, rfl, rfl, rfl, rfl⟩⟩

theorem extiDisable (id : Code) : Statement (.extiDisable id) :=
  ⟨rfl, _, rfl, row_match .extiDisable _ _ _ _ _ _ _ _
    ⟨rfl, rfl, zero id, rfl, rfl, rfl, rfl, rfl⟩⟩

theorem extiSetcb (id h : Code) : Statement (.extiSetcb id h) :=
  ⟨rfl, _, rfl, row_match .extiSetcb _ _ _ _ _ _ _ _
    ⟨rfl, rfl, zero id, rfl, rfl, rfl, zero h, rfl⟩⟩

theorem evTick (id : Code) : Statement (.evTick id) :=
  ⟨rfl, _, rfl, row_match .evTick _ _ _ _ _ _ _ _ ⟨rfl, rfl, zero id, rfl, rfl, rfl, rfl, rfl⟩⟩

theorem evExtrig (id : Code) : Statement (.evExtrig id) :=
  ⟨rfl, _, rfl, row_match .evExtrig _ _ _ _ _ _ _ _ ⟨rfl, rfl, zero id, rfl, rfl, rfl, rfl, rfl⟩⟩

theorem evIrq (a : Code) : Statement (.evIrq a) :=
  ⟨rfl, _, rfl, row_match .evIrq _ _ _ _ _ _ _ _ ⟨rfl, rfl, rfl, zero a, rfl, rfl, rfl, rfl⟩⟩

theorem evButton (v : Bool) : Statement (.evButton v) := by
  cases v <;> exact ⟨rfl, _, rfl, rfl⟩

theorem evMain : Statement .evMain := ⟨rfl, _, rfl, rfl⟩

end Sys2Proof.Laws.EncodingShape
end

