-- ==== Sys2Proof/Machine/Asm.lean ====
section
/-! DEFINITION. The assembler syntax and the pseudo-instructions (30_encoding.md R108, R109): a line of
text becomes the commands or events it stands for. What R108 leaves open of the text is log entry 22. -/

namespace Sys2Proof.Machine

/-- A piece of a line. -/
abbrev Text := List Char

/-- The pieces of a text between separators. -/
def splitAt' (sep : Char) : Text → List Text
  | [] => [[]]
  | x :: xs =>
    if x = sep then [] :: splitAt' sep xs
    else
      match splitAt' sep xs with
      | [] => [[x]]
      | h :: t => (x :: h) :: t

/-- A text without spaces at its ends. -/
def trim (cs : Text) : Text :=
  ((cs.dropWhile (· == ' ')).reverse.dropWhile (· == ' ')).reverse

/-- The value of a digit of a base up to 16. -/
def digitOf (base : Nat) (c : Char) : Option Nat :=
  let n := c.toNat
  let v := if 48 ≤ n ∧ n ≤ 57 then n - 48
    else if 97 ≤ n ∧ n ≤ 102 then n - 87
    else if 65 ≤ n ∧ n ≤ 70 then n - 55
    else 16
  if v < base then some v else none

/-- The number of a text of digits, the most significant first. -/
def digits (base : Nat) (cs : Text) : Option Nat :=
  match cs with
  | [] => none
  | _ => cs.foldl (fun acc c => acc.bind fun a => (digitOf base c).map fun v => a * base + v) (some 0)

/-- A number: hexadecimal with `0x`, else decimal (30_encoding.md R108). -/
def number (cs : Text) : Option Nat :=
  match cs with
  | '0' :: 'x' :: rest => digits 16 rest
  | _ => digits 10 cs

/-- A number of at most `bound`. -/
def numberUpTo (bound : Nat) (cs : Text) : Option Nat :=
  match number cs with
  | none => none
  | some n => if n ≤ bound then some n else none

/-- A 16-bit number operand. -/
def half (cs : Text) : Option Half := (numberUpTo 65535 cs).map (BitVec.ofNat 16)

/-- A 4-bit number operand. -/
def nibble (cs : Text) : Option Code := (numberUpTo 15 cs).map (BitVec.ofNat 4)

/-- An operand that is a name of a list, whose place is its code, or a raw field `#n`
(30_encoding.md R108). -/
def named (names : List String) (cs : Text) : Option Code :=
  match cs with
  | '#' :: rest => nibble rest
  | _ => (names.findIdx? fun n => n.toList == cs).map (BitVec.ofNat 4)

/-- An identifier operand: a letter and a number from 0 to 15, or a raw field. -/
def ident (letter : Char) (cs : Text) : Option Code :=
  match cs with
  | '#' :: rest => nibble rest
  | c :: rest => if c = letter then nibble rest else none
  | [] => none

/-- `<mode>` (30_encoding.md R97, R108). -/
def modeName : Text → Option Code := named ["NORMAL", "PCPWM", "CTC", "FPWM"]
/-- `<clk>` (30_encoding.md R96, R108). -/
def clockName : Text → Option Code :=
  named ["OFF", "DIV1", "DIV8", "DIV32", "DIV64", "DIV128", "DIV256", "DIV1024", "EXTF", "EXTR"]
/-- `<com>` (30_encoding.md R98, R108). -/
def comName : Text → Option Code := named ["DISC", "TOGGLE", "CLEAR", "SET"]
/-- `<pwm>` (30_encoding.md R98, R108). -/
def pwmName : Text → Option Code := named ["DISC", "NONINV", "INV"]
/-- `<cb>` (30_encoding.md R99, R108). -/
def cbName : Text → Option Code :=
  named ["NULL", "FAST", "SLOW", "ABORT", "CB4", "CB5", "CB6", "CB7", "CB8", "CB9", "CB10", "CB11",
    "CB12", "CB13", "CB14", "CB15"]
/-- `<edge>` (30_encoding.md R100, R108). -/
def edgeName : Text → Option Code := named ["LOW", "ANY", "FALL", "RISE"]
/-- `<src>` (30_encoding.md R101, R108). -/
def sourceName : Text → Option Code :=
  named ["EXT0", "EXT1", "EXT2", "T0_OVF", "T0_COMP", "T1_OVF", "T1_COMP", "T2_OVF", "T2_COMP"]

/-- The value of a keyword operand `key=value`: the default where it is left out, none where the text
is no value (30_encoding.md R108). -/
def keyword {α : Type} (key : String) (parse : Text → Option α) (default : α) :
    List Text → Option α
  | [] => some default
  | t :: rest =>
    if (key.toList ++ ['=']).isPrefixOf t then parse (trim (t.drop (key.length + 1)))
    else keyword key parse default rest

/-- Every operand is one of the keywords. -/
def onlyKeywords (keys : List String) (ts : List Text) : Bool :=
  ts.all fun t => keys.any fun k => (k.toList ++ ['=']).isPrefixOf t

/-- The operands of an INIT line; the keywords left out are 0 and NULL is a null configuration with
every other field 0 (30_encoding.md R108). -/
def initLine (mk : Bool → Code → Code → Code → Code → Code → Half → Half → Instr) (ops : List Text) :
    Option Instr :=
  match ops with
  | [] => none
  | [o] => if o == "NULL".toList then some (mk false 0 0 0 0 0 0 0) else none
  | t :: m :: rest =>
    if onlyKeywords ["com", "pwm", "cb", "ic", "cv"] rest then
      (ident 'T' t).bind fun id => (modeName m).bind fun a =>
        (keyword "com" comName 0 rest).bind fun b => (keyword "pwm" pwmName 0 rest).bind fun c =>
          (keyword "cb" cbName 0 rest).bind fun h => (keyword "cv" half 0 rest).bind fun cv =>
            (keyword "ic" half 0 rest).map fun ic => mk true id a b c h cv ic
    else none

/-- The operands of an EXTI.INIT line (30_encoding.md R108). -/
def extiInitLine (ops : List Text) : Option Instr :=
  match ops with
  | [o] => if o == "NULL".toList then some (.extiInit false 0 0 0) else none
  | [l, e, k] =>
    if onlyKeywords ["cb"] [k] then
      (ident 'L' l).bind fun id => (edgeName e).bind fun a =>
        (keyword "cb" cbName 0 [k]).map fun h => .extiInit true id a h
    else none
  | _ => none

/-- A line with one operand. -/
def oneOperand {α : Type} (p : Text → Option α) (mk : α → Instr) (ops : List Text) : Option Instr :=
  match ops with
  | [x] => (p x).map mk
  | _ => none

/-- A line with two operands. -/
def twoOperands {α β : Type} (p : Text → Option α) (q : Text → Option β) (mk : α → β → Instr)
    (ops : List Text) : Option Instr :=
  match ops with
  | [x, y] => (p x).bind fun a => (q y).map fun b => mk a b
  | _ => none

/-- A button level. -/
def level (cs : Text) : Option Bool := (numberUpTo 1 cs).map fun n => n == 1

/-- The instruction of a mnemonic and its operands (30_encoding.md R108). -/
def assembleOne (mnemonic : Text) (ops : List Text) : Option Instr :=
  if mnemonic == "tmr.init".toList then initLine .tmrInit ops
  else if mnemonic == "tmr.setcb".toList then twoOperands (ident 'T') cbName .tmrSetcb ops
  else if mnemonic == "tmr.start".toList then twoOperands (ident 'T') clockName .tmrStart ops
  else if mnemonic == "tmr.stop".toList then oneOperand (ident 'T') .tmrStop ops
  else if mnemonic == "tmr.setval".toList then twoOperands (ident 'T') half .tmrSetval ops
  else if mnemonic == "tmr.reset".toList then oneOperand (ident 'T') .tmrReset ops
  else if mnemonic == "tmr.rdcnt".toList then oneOperand (ident 'T') .tmrRdcnt ops
  else if mnemonic == "tmgr.init".toList then initLine .tmgrInit ops
  else if mnemonic == "tmgr.start".toList then twoOperands (ident 'T') clockName .tmgrStart ops
  else if mnemonic == "tmgr.stop".toList then oneOperand (ident 'T') .tmgrStop ops
  else if mnemonic == "tmgr.setval".toList then twoOperands (ident 'T') half .tmgrSetval ops
  else if mnemonic == "exti.init".toList then extiInitLine ops
  else if mnemonic == "exti.enable".toList then oneOperand (ident 'L') .extiEnable ops
  else if mnemonic == "exti.disable".toList then oneOperand (ident 'L') .extiDisable ops
  else if mnemonic == "exti.setcb".toList then twoOperands (ident 'L') cbName .extiSetcb ops
  else if mnemonic == "ev.tick".toList then oneOperand (ident 'T') .evTick ops
  else if mnemonic == "ev.extrig".toList then oneOperand (ident 'L') .evExtrig ops
  else if mnemonic == "ev.irq".toList then oneOperand sourceName .evIrq ops
  else if mnemonic == "ev.button".toList then oneOperand level .evButton ops
  else if mnemonic == "ev.main".toList then (if ops.isEmpty then some .evMain else none)
  else none

/-- How many EV.MAIN steps take a driver program from its first word to its end (30_encoding.md R109,
`ev.run`). -/
def mainSteps : List Word → Nat
  | [] => 0
  | [_] => 1
  | w :: x :: rest => if wordLength w = 2 then 1 + mainSteps rest else 1 + mainSteps (x :: rest)

/-- The pseudo-instructions of traces (30_encoding.md R109); `left` is how many EV.MAIN steps the
driver program still takes, none in Application mode, where `ev.run` is not defined. -/
def assemblePseudo (left : Option Nat) (mnemonic : Text) (ops : List Text) : Option (List Instr) :=
  if mnemonic == "ev.ticks".toList then
    match ops with
    | [t, n] => (ident 'T' t).bind fun id => (number n).map fun m => List.replicate m (.evTick id)
    | _ => none
  else if mnemonic == "ev.mains".toList then
    match ops with
    | [n] => (number n).map fun m => List.replicate m .evMain
    | _ => none
  else if mnemonic == "ev.run".toList then
    (if ops.isEmpty then left.map fun m => List.replicate m .evMain else none)
  else none

/-- One line: a comment starts at `;`, a blank line stands for nothing, a pseudo-instruction for its
events, any other line for one instruction; none is a line the syntax has no reading of
(30_encoding.md R108, R109). -/
def assembleLine (left : Option Nat) (line : Text) : Option (List Instr) :=
  match trim (line.takeWhile (· != ';')) with
  | [] => some []
  | text =>
    let mnemonic := text.takeWhile (· != ' ')
    let rest := trim (text.dropWhile (· != ' '))
    let ops := if rest.isEmpty then [] else (splitAt' ',' rest).map trim
    match assembleOne mnemonic ops with
    | some i => some [i]
    | none => assemblePseudo left mnemonic ops

/-- The words of a program's lines (30_encoding.md R108, R110). -/
def assemble (lines : List String) : Option (List Word) :=
  lines.foldl (fun acc line => acc.bind fun ws =>
    (assembleLine none line.toList).map fun is => ws ++ is.flatMap encode) (some [])

end Sys2Proof.Machine
end

