-- ==== Sys2Proof/Tests/Slice0.lean ====
section
/-! SUPPORT. Tests, each from a vector of 95_test_vectors.md or worked by hand from the rule it names,
and a witness for the hypotheses of every statement that has some. -/

namespace Sys2Proof.Tests

open Sys2Proof.Machine

/-! ### Helpers -/

/-- The parameters of 95_test_vectors.md, Conventions. -/
def vectorParams : Params where
  widthT0 := 8
  widthT1 := 16
  widthT2 := 8
  t2ExternalClock := false
  fastTimer := .t0
  slowTimer := .t1
  abortLine := .l0
  preloadFast := 6
  preloadSlow := 0xF0BE
  clockFast := .div64
  clockSlow := .div1024
  abortEdge := .rise
  wrapTo := 2

/-- The reset state with the vectors' parameters. -/
def base : State := { State.reset with params := vectorParams }

/-- What a next state shows. -/
def shows {α : Type} (f : State → α) : Host.Outcome State Fault Refusal → Option α
  | .next s => some (f s)
  | .fault _ => none
  | .refused _ => none

/-- Whether an outcome is the event not being enabled. -/
def isNotEnabled : Host.Outcome State Fault Refusal → Bool
  | .fault .notEnabled => true
  | _ => false

/-- T0 in Normal mode, running at DIV64, its overflow pending and enabled, with a callback. -/
def overflowed (cb : Code) : State :=
  { base.setTimer .t0 { base.timer .t0 with cs := .div64, toie := true, tov := true, cb := cb } with
    gie := true }

/-- T2 in a mode, running, with a count and a compare value. -/
def counting (m : WaveMode) (cnt ocr : Half) : State :=
  base.setTimer .t2 { base.timer .t2 with wgm := m, cs := .div1, cnt := cnt, ocr := ocr }

/-- A driver program at its first word. -/
def program (words : List Word) : State := { base with mainProgram := .driverProgram words }

/-- The firmware at a label. -/
def at' (l : Label) : State := { base with spc := l }

/-- Line 0 pending and enabled, with a callback. -/
def edgePending (cb : Code) : State :=
  { base.setLine .l0 { en := true, edge := .rise, intf := true, xcb := cb } with
    gie := true, runState := .running, pwmTickCount := 7, delayTickCount := 12 }

/-! ### Well-formedness (30_encoding.md R95, R105.4) -/

theorem test_illFormed_evTick : (Instr.evTick 3).wellFormed = false := by decide
theorem test_illFormed_evExtrig : (Instr.evExtrig 15).wellFormed = false := by decide
theorem test_illFormed_evIrq : (Instr.evIrq 9).wellFormed = false := by decide

/-! ### Decoding: a word of every row, written from 30_encoding.md R92 and R102 -/

theorem test_decode_tmrInit : decode 0x10221008#32 (some 0x008001FF#32) =
    .ok (.tmrInit true 2 2 1 0 0 0x80 0x1FF) := by decide
theorem test_decode_tmrSetcb : decode 0x11100020#32 none = .ok (.tmrSetcb 1 2) := by decide
theorem test_decode_tmrStart : decode 0x12230000#32 none = .ok (.tmrStart 2 3) := by decide
theorem test_decode_tmrStop : decode 0x13200000#32 none = .ok (.tmrStop 2) := by decide
theorem test_decode_tmrSetval : decode 0x14100000#32 (some 0x1234#32) =
    .ok (.tmrSetval 1 0x1234) := by decide
theorem test_decode_tmrReset : decode 0x15200000#32 none = .ok (.tmrReset 2) := by decide
theorem test_decode_tmrRdcnt : decode 0x16100000#32 none = .ok (.tmrRdcnt 1) := by decide
theorem test_decode_tmgrInit : decode 0x20230210#32 (some 0x00030006#32) =
    .ok (.tmgrInit false 2 3 0 2 1 3 6) := by decide
theorem test_decode_tmgrStart : decode 0x22170000#32 none = .ok (.tmgrStart 1 7) := by decide
theorem test_decode_tmgrStop : decode 0x23300000#32 none = .ok (.tmgrStop 3) := by decide
theorem test_decode_tmgrSetval : decode 0x24000000#32 (some 0x0106#32) =
    .ok (.tmgrSetval 0 0x0106) := by decide
theorem test_decode_extiInit : decode 0x30220038#32 none = .ok (.extiInit true 2 2 3) := by decide
theorem test_decode_extiEnable : decode 0x31300000#32 none = .ok (.extiEnable 3) := by decide
theorem test_decode_extiDisable : decode 0x32100000#32 none = .ok (.extiDisable 1) := by decide
theorem test_decode_extiSetcb : decode 0x33100030#32 none = .ok (.extiSetcb 1 3) := by decide
theorem test_decode_evTick : decode 0x80200000#32 none = .ok (.evTick 2) := by decide
theorem test_decode_evExtrig : decode 0x81100000#32 none = .ok (.evExtrig 1) := by decide
theorem test_decode_evIrq : decode 0x82080000#32 none = .ok (.evIrq 8) := by decide
theorem test_decode_evButton : decode 0x83010000#32 none = .ok (.evButton true) := by decide
theorem test_decode_evMain : decode 0x84000000#32 none = .ok .evMain := by decide

/-! The Invalid words of 95_test_vectors.md 2.1, one for each reason and unit. -/

theorem test_decode_truncated : decode 0x10000000#32 none = .error .truncatedCommand := by decide
theorem test_decode_op_tmr : decode 0x17000000#32 none = .error .reservedOp := by decide
theorem test_decode_op_tmgr : decode 0x21000000#32 none = .error .reservedOp := by decide
theorem test_decode_z : decode 0x13000001#32 none = .error .reservedField := by decide
theorem test_decode_badId : decode 0x12A00000#32 none = .ok (.tmrStart 10 0) := by decide
theorem test_decode_tick3 : decode 0x80300000#32 none = .error .eventRange := by decide
theorem test_decode_irq9 : decode 0x82090000#32 none = .error .eventRange := by decide
theorem test_decode_ext : decode 0x14000000#32 (some 0x00010000#32) = .error .reservedField := by
  decide
theorem test_decode_unit : decode 0x50000000#32 none = .error .reservedUnit := by decide
theorem test_decode_button2 : decode 0x83020000#32 none = .error .reservedField := by decide

/-- Stored bytes are little-endian (20_memory.md R72). -/
theorem test_decode_bytes : decodeBytes [0x18, 0x00, 0x00, 0x20, 0x06, 0x00, 0x00, 0x00] =
    .ok (.tmgrInit true 0 0 0 0 1 0 6) := by decide

theorem test_encode_example : encode (.tmgrInit true 0 0 0 0 1 0 6) = [0x20000018#32, 6] := by decide

/-! ### The Timer Peripheral Driver (95_test_vectors.md 2.2, 2.3) -/

theorem test_tmrInit_ctc :
    shows (fun s => (s.timer .t2, s.res)) (exec (.tmrInit true 2 2 1 0 0 0x80 0x1FF) base) =
      some ({ cnt := 0xFF, ocr := 0x80, wgm := .ctc, com := 1, cs := .off, toie := false,
              ocie := true, tov := false, ocf := false, cb := 0 }, .ok) := by decide
theorem test_tmrInit_stops_a_running_timer :
    shows (fun s => (s.timer .t0, s.gie)) (exec (.tmrInit true 0 0 0 0 0 0 6) (overflowed 1)) =
      some ({ cnt := 6, ocr := 0, wgm := .normal, com := 0, cs := .off, toie := true,
              ocie := false, tov := false, ocf := false, cb := 1 }, true) := by decide
theorem test_tmrSetcb : shows (fun s => ((s.timer .t0).cb, s.res)) (exec (.tmrSetcb 0 1) base) =
    some (1, .ok) := by decide
theorem test_tmrSetcb_null_first :
    shows (fun s => s.res) (exec (.tmrSetcb 3 0) base) = some .nullPtr := by decide
theorem test_tmrStart : shows (fun s => ((s.timer .t0).cs, s.gie, s.res))
    (exec (.tmrStart 0 4) base) = some (.div64, true, .ok) := by decide
theorem test_tmrStart_extf : shows (fun s => ((s.timer .t2).cs, s.gie, s.res))
    (exec (.tmrStart 2 8) base) = some (.off, false, .nok) := by decide
theorem test_tmrStop : shows (fun s => ((s.timer .t1).cs, (s.timer .t1).cnt))
    (exec (.tmrStop 1) (base.setTimer .t1 { base.timer .t1 with cnt := 0x1234, cs := .div1024 })) =
      some (.off, 0x1234) := by decide
theorem test_tmrSetval_low_byte :
    shows (fun s => (s.timer .t0).cnt) (exec (.tmrSetval 0 0x1234) base) = some 0x34 := by decide
theorem test_tmrSetval_whole :
    shows (fun s => (s.timer .t1).cnt) (exec (.tmrSetval 1 0x1234) base) = some 0x1234 := by decide
theorem test_tmrReset : shows (fun s => s.timer .t0) (exec (.tmrReset 0) (overflowed 1)) =
    some { TimerRegs.reset with cb := 1 } := by decide
theorem test_tmrRdcnt : shows (fun s => s.val)
    (exec (.tmrRdcnt 2) (counting .normal 0x34 0)) = some 0x0034 := by decide
theorem test_tmrRdcnt_nok : shows (fun s => (s.val, s.res))
    (exec (.tmrRdcnt 3) { base with val := 7 }) = some (7, .nok) := by decide

/-! ### The Timer Manager (95_test_vectors.md 2.4) -/

theorem test_tmgrInit : shows (fun s => ((s.timer .t0).cnt, (s.timer .t0).toie, (s.timer .t0).cb))
    (exec (.tmgrInit true 0 0 0 0 1 0 6) base) = some (6, true, 1) := by decide
theorem test_tmgrInit_null :
    shows (fun s => s.res) (exec (.tmgrInit false 3 9 0 0 0 0 0) base) = some .nullPtr := by decide
theorem test_tmgrStart : shows (fun s => ((s.timer .t1).cs, s.gie))
    (exec (.tmgrStart 1 7) base) = some (.div1024, true) := by decide
theorem test_tmgrStart_12 :
    shows (fun s => (s.gie, s.res)) (exec (.tmgrStart 0 12) base) = some (false, .nok) := by decide
theorem test_tmgrStop : shows (fun s => (s.timer .t2).cs)
    (exec (.tmgrStop 2) (counting .normal 0 0)) = some .off := by decide
theorem test_tmgrStop_3 :
    shows (fun s => s.res) (exec (.tmgrStop 3) base) = some .nok := by decide
theorem test_tmgrSetval :
    shows (fun s => (s.timer .t0).cnt) (exec (.tmgrSetval 0 0x0106) base) = some 6 := by decide

/-! ### The External Interrupt Manager (95_test_vectors.md 2.5) -/

theorem test_extiInit : shows (fun s => s.line .l0) (exec (.extiInit true 0 3 3) base) =
    some { en := false, edge := .rise, intf := false, xcb := 3 } := by decide
theorem test_extiInit_line2_low :
    shows (fun s => s.res) (exec (.extiInit true 2 0 3) base) = some .nok := by decide
theorem test_extiEnable : shows (fun s => (s.line .l0, s.gie))
    (exec (.extiEnable 0) (base.setLine .l0 { base.line .l0 with intf := true })) =
      some ({ en := true, edge := .low, intf := true, xcb := 0 }, false) := by decide
theorem test_extiDisable : shows (fun s => s.line .l0) (exec (.extiDisable 0) (edgePending 3)) =
    some { en := false, edge := .rise, intf := true, xcb := 3 } := by decide
theorem test_extiSetcb :
    shows (fun s => (s.line .l1).xcb) (exec (.extiSetcb 1 3) base) = some 3 := by decide
theorem test_extiSetcb_null_first :
    shows (fun s => s.res) (exec (.extiSetcb 4 0) base) = some .nullPtr := by decide

/-! ### Events (95_test_vectors.md 2.6, 2.7) -/

theorem test_evTick_overflow : shows (fun s => ((s.timer .t2).cnt, (s.timer .t2).tov, (s.timer .t2).ocf))
    (exec (.evTick 2) (counting .normal 0xFF 0)) = some (0, true, false) := by decide
theorem test_evTick_compare : shows (fun s => ((s.timer .t2).cnt, (s.timer .t2).tov, (s.timer .t2).ocf))
    (exec (.evTick 2) (counting .ctc 5 5)) = some (0, false, true) := by decide
theorem test_evExtrig : shows (fun s => s.line .l0) (exec (.evExtrig 0) base) =
    some { en := false, edge := .low, intf := true, xcb := 0 } := by decide
theorem test_evIrq_fast : shows (fun s => ((s.timer .t0).tov, (s.timer .t0).cnt, s.pwmTickCount))
    (exec (.evIrq 3) { overflowed 1 with pwmTickCount := 255 }) = some (false, 6, 0) := by decide
theorem test_evIrq_not_pending : isNotEnabled (exec (.evIrq 4) (overflowed 1)) = true := by decide
theorem test_evButton : shows (fun s => s.btn) (exec (.evButton true) base) = some true := by decide
theorem test_evMain_early_close : shows (fun s => s.spc)
    (exec .evMain { at' .mOff with k := .shortSide, pwmTickCount := 2 }) = some .mFstop := by decide
theorem test_evMain_command : shows (fun s => ((s.timer .t0).cnt, s.pc))
    (exec .evMain (program [0x10000008#32, 0xFE])) = some (0xFE, 2) := by decide

/-! ### Other parameters than the defaults (00_scope.md R8, 92_eei_decisions.md D5 and D43) -/

theorem test_setval_of_a_10_bit_timer : shows (fun s => (s.timer .t2).cnt)
    (exec (.tmrSetval 2 0xFFFF) { base with params := { vectorParams with widthT2 := 10 } }) =
      some 0x3FF := by decide
theorem test_tick_of_a_10_bit_timer : shows (fun s => ((s.timer .t2).cnt, (s.timer .t2).tov))
    (exec (.evTick 2) { counting .normal 0x3FF 0 with params := { vectorParams with widthT2 := 10 } }) =
      some (0, true) := by decide
theorem test_wrap_to_zero : shows (fun s => s.delayTickCount)
    (exec .evMain { at' .rWrap with params := { vectorParams with wrapTo := 0 }, delayTickCount := 19 }) =
      some 0 := by decide

/-! ### Steps -/

theorem test_step_trace : shows (fun s => (s.btn, s.trace))
    (step { base with trace := [0x83010000#32, 0x84000000#32] }) =
      some (true, [0x84000000#32]) := by decide
theorem test_step_event_word : shows (fun s => (s.line .l0).intf)
    (step (base.withFetchWord 32 0x81000000)) = some true := by decide
theorem test_step_command_word : shows (fun s => ((s.timer .t0).cnt, s.pc))
    (step (base.withFetchWord 64 0x0000000620000018)) = some (6, 2) := by decide

/-! ### The assembler (30_encoding.md R108, R109) -/

theorem test_assemble_line : assembleLine none "tmgr.init T0, NORMAL, cb=FAST, ic=6".toList =
    some [.tmgrInit true 0 0 0 0 1 0 6] := by decide
theorem test_assemble_pseudo : assembleLine (some 2) "ev.run ; to the end".toList =
    some [.evMain, .evMain] := by decide

/-! ### Witnesses: states and operands that meet the hypotheses of the statements -/

theorem witness_DecodeOfEncodeIsTheInstruction : (Instr.evIrq 8).wellFormed = true := by decide

theorem witness_EncodeOfDecodeIsTheWords :
    decode 0x14F00000#32 (some 0xFFFF#32) = .ok (.tmrSetval 15 0xFFFF) := by decide

theorem witness_TmrInitConfiguresTheTimer :
    subAccepted .normal 3 15 ∧ subAccepted .fpwm 15 2 ∧ 2 < (3 : Code).toNat ∧ 3 < (4 : Code).toNat ∧
      (2 : Code) = modeCode .ctc ∧ ¬ subAccepted .ctc 4 0 := by
  unfold subAccepted; decide

theorem witness_TmrSetcbRegistersTheCallback :
    (15 : Code) ≠ 0 ∧ 2 < (3 : Code).toNat ∧ (2 : Code) = timerCode .t2 := by decide

theorem witness_StartSelectsTheClock :
    clockAccepted base.params.t2ExternalClock .t2 .div32 ∧ clockAccepted true .t2 .extr ∧
      2 < (3 : Code).toNat ∧ 9 < (10 : Code).toNat ∧ (0 : Code) = timerCode .t0 ∧
      (3 : Code) = clockCode .div32 ∧ ¬ clockAccepted base.params.t2ExternalClock .t0 .div32 := by
  unfold clockAccepted; decide

theorem witness_StopClearsTheClockSelect : 2 < (3 : Code).toNat ∧ 2 < (15 : Code).toNat := by decide

theorem witness_SetvalWritesTheCount : 2 < (3 : Code).toNat ∧ 2 < (15 : Code).toNat := by decide

theorem witness_TmrResetClearsTheTimer : 2 < (3 : Code).toNat ∧ 2 < (15 : Code).toNat := by decide

theorem witness_TmrRdcntReadsTheCount : 2 < (3 : Code).toNat ∧ 2 < (15 : Code).toNat := by decide

theorem witness_FailedCommandChangesOnlyRes :
    (Instr.tmrStop 3).isEvent = false ∧
      exec (.tmrStop 3) base = .next { base with res := .nok } ∧ ResultCode.nok ≠ .ok :=
  ⟨rfl, rfl, by decide⟩

theorem witness_StartThenStopKeepsTheCount :
    ∃ s1, exec (.tmrStart (timerCode .t1) 7) base = .next s1 ∧ s1.res = .ok := ⟨_, rfl, rfl⟩

theorem witness_LifecycleFollowsTheCommands :
    subAccepted .pcpwm 0 2 ∧ clockAccepted base.params.t2ExternalClock .t1 .extf ∧ Clock.extf ≠ .off := by
  unfold subAccepted clockAccepted; decide

theorem witness_TmgrInitConfiguresAndRegisters :
    subAccepted .ctc 3 15 ∧ 2 < (3 : Code).toNat ∧ 3 < (4 : Code).toNat ∧
      (3 : Code) = modeCode .fpwm ∧ ¬ subAccepted .fpwm 0 3 := by
  unfold subAccepted; decide

theorem witness_BootInitsCommute : TimerId.t0 ≠ .t1 ∧ edgeAccepted .l2 .rise := by
  unfold edgeAccepted; decide

theorem witness_ExtiInitProgramsTheLine :
    (3 : Code) ≠ 0 ∧ edgeAccepted .l2 .fall ∧ 2 < (3 : Code).toNat ∧ 3 < (4 : Code).toNat ∧
      (2 : Code) = lineCode .l2 ∧ (1 : Code) = edgeCode .any ∧ ¬ edgeAccepted .l2 .any := by
  unfold edgeAccepted; decide

theorem witness_ExtiEnableAndDisableGateTheLine :
    2 < (3 : Code).toNat ∧ 2 < (15 : Code).toNat := by decide

theorem witness_ExtiSetcbReplacesTheCallback :
    (4 : Code) ≠ 0 ∧ 2 < (3 : Code).toNat ∧ (2 : Code) = lineCode .l2 := by decide

theorem witness_EnvironmentEvents : base.refused = none := by decide

theorem witness_LatchedEdgeAbortsAfterEnable :
    let s := { base.setLine .l0 { base.line .l0 with xcb := 3 } with gie := true }
    s.refused = none ∧ s.gie = true ∧ (s.line .l0).en = false ∧ (s.line .l0).xcb = abortHandle := by
  decide

theorem witness_NormalEdgeCountsAndFlags :
    let s := counting .normal 0xFF 0xFF
    s.refused = none ∧ (s.timer .t2).cs ≠ .off ∧ (s.timer .t2).wgm = .normal := by decide

theorem witness_CtcEdgeCountsAndFlags :
    let s := counting .ctc 0xFF 5
    s.refused = none ∧ (s.timer .t2).cs ≠ .off ∧ (s.timer .t2).wgm = .ctc := by decide

theorem witness_PwmEdgeIsRefused :
    (counting .pcpwm 0 0).refused = none ∧ ((counting .pcpwm 0 0).timer .t2).cs ≠ .off ∧
      ((counting .pcpwm 0 0).timer .t2).wgm = .pcpwm ∧
      ((counting .fpwm 0 0).timer .t2).wgm = .fpwm := by decide

theorem witness_EdgeWritesOnlyItsTimer :
    ∃ s', exec (.evTick 2) (counting .normal 0xFF 0) = .next s' := ⟨_, rfl⟩

theorem witness_OverflowPeriod :
    let s := counting .normal 6 0
    s.refused = none ∧ (s.timer .t2).cs ≠ .off ∧ (s.timer .t2).wgm = .normal ∧
      (s.timer .t2).tov = false ∧ (s.timer .t2).cnt.toNat < 2 ^ s.width .t2 ∧
      (s.timer .t2).cnt.toNat + 249 < 2 ^ s.width .t2 := by decide

theorem witness_ComparePeriod :
    let s := counting .ctc 0 0xFF
    s.refused = none ∧ (s.timer .t2).cs ≠ .off ∧ (s.timer .t2).wgm = .ctc ∧
      (s.timer .t2).ocf = false ∧ (s.timer .t2).cnt = 0 ∧ 255 ≤ (s.timer .t2).ocr.toNat ∧
      (s.timer .t2).ocr.toNat < 2 ^ s.width .t2 := by decide

theorem witness_NullCallbackIsAbsorbed :
    let s := (overflowed 0).setTimer .t1
      { (overflowed 0).timer .t1 with ocie := true, ocf := true, wgm := .ctc }
    s.gie = true ∧ s.refused = none ∧
      (s.timer .t0).tov = true ∧ (s.timer .t0).toie = true ∧ (s.timer .t0).cb = 0 ∧
      (s.timer .t1).ocf = true ∧ (s.timer .t1).ocie = true ∧ (s.timer .t1).cb = 0 := by decide

theorem witness_NullCallbackIsAbsorbed_line :
    (edgePending 0).gie = true ∧ ((edgePending 0).line .l0).intf = true ∧
      ((edgePending 0).line .l0).en = true ∧ ((edgePending 0).line .l0).xcb = 0 := by decide

theorem witness_TickCallbacksCountAndRearm :
    irqEnabled (.ovf .t0) (overflowed 1) = true ∧ irqSlot (.ovf .t0) (overflowed 1) = fastHandle ∧
      irqEnabled (.ext .l0) (edgePending 2) = true ∧ irqSlot (.ext .l0) (edgePending 2) = slowHandle := by
  decide

theorem witness_AbortZeroesAndStops :
    irqEnabled (.ext .l0) (edgePending 3) = true ∧ irqSlot (.ext .l0) (edgePending 3) = abortHandle := by
  decide

theorem witness_OpaqueCallbackIsRefused :
    irqEnabled (.ovf .t0) (overflowed 4) = true ∧ 4 ≤ (irqSlot (.ovf .t0) (overflowed 4)).toNat := by
  decide

theorem witness_DispatchFrame : ∃ s', exec (.evIrq 0) (edgePending 3) = .next s' := ⟨_, rfl⟩

theorem witness_BothFlagsDispatchInEitherOrder :
    let s := (overflowed 3).setTimer .t0 { (overflowed 3).timer .t0 with ocf := true, ocie := true }
    s.gie = true ∧ s.refused = none ∧ (s.timer .t0).cb.toNat < 4 ∧ (s.timer .t0).tov = true ∧
      (s.timer .t0).toie = true ∧ (s.timer .t0).ocf = true ∧ (s.timer .t0).ocie = true := by decide

theorem witness_MainExecutesTheCommandAtPc :
    let ws : List Word := [0x13000000, 0x14000000, 7]
    let s := { program ws with pc := 1 }
    s.refused = none ∧ s.mainProgram = .driverProgram ws ∧ ws[s.pc]? = some 0x14000000#32 ∧
      decode 0x14000000#32 ws[s.pc + 1]? = .ok (.tmrSetval 0 7) ∧
      (Instr.tmrSetval 0 7).isEvent = false := by decide

theorem witness_MainRefusesBadWords :
    (program [0x50000000#32]).refused = none ∧
      decode 0x50000000#32 ([0x50000000#32] : List Word)[0 + 1]? = .error .reservedUnit ∧
      DecodeError.reservedUnit ≠ .truncatedCommand ∧
      decode 0x10000000#32 ([0x10000000#32] : List Word)[0 + 1]? = .error .truncatedCommand ∧
      decode 0x84000000#32 ([0x84000000#32] : List Word)[0 + 1]? = .ok .evMain ∧
      Instr.evMain.isEvent = true := by decide

theorem witness_NotEnabledEventsAreNoSteps :
    (base.timer .t0).cs = .off ∧ base.gie = false ∧ irqFlag (.comp .t0) (overflowed 1) = false ∧
      irqEnable (.ext .l2) (overflowed 1) = false ∧
      (program []).mainProgram = .driverProgram [] ∧ (program []).pc = ([] : List Word).length := by
  decide

theorem witness_BootMicroSteps :
    FirmwareAt .bFast (at' .bFast) ∧ FirmwareAt .bSlow (at' .bSlow) ∧ FirmwareAt .bExti (at' .bExti) ∧
      edgeAccepted base.params.abortLine base.params.abortEdge ∧ ¬ edgeAccepted .l2 .low := by
  unfold FirmwareAt edgeAccepted; decide

theorem witness_StoppedMicroSteps :
    FirmwareAt .loop (at' .loop) ∧ FirmwareAt .sExtiDis (at' .sExtiDis) ∧
      FirmwareAt .sTstop (at' .sTstop) ∧ FirmwareAt .sCarstop (at' .sCarstop) ∧
      FirmwareAt .sLed (at' .sLed) ∧ FirmwareAt .sPoll (at' .sPoll) ∧ FirmwareAt .sRun (at' .sRun) ∧
      FirmwareAt .sZero (at' .sZero) := by
  unfold FirmwareAt; decide

theorem witness_RunningMicroSteps :
    FirmwareAt .rExtiEn (at' .rExtiEn) ∧ FirmwareAt .rTstart (at' .rTstart) ∧
      FirmwareAt .rSample (at' .rSample) ∧ FirmwareAt .rWrap (at' .rWrap) ∧
      clockAccepted false base.params.slowTimer base.params.clockSlow ∧
      ¬ clockAccepted false base.params.slowTimer .div32 := by
  unfold FirmwareAt clockAccepted; decide

theorem witness_DispatchFollowsTheSchedule :
    FirmwareAt .rDispatch { at' .rDispatch with d := 2 } ∧
      FirmwareAt .rDispatch { at' .rDispatch with d := 19 } ∧ (2 : Byte).toNat ≤ 2 ∧
      18 < (19 : Byte).toNat ∧ 2 < (3 : Byte).toNat ∧ (8 : Byte).toNat ≤ 8 ∧ (9 : Byte).toNat = 9 ∧
      (17 : Byte).toNat = 17 ∧ 11 < (12 : Byte).toNat ∧ (15 : Byte).toNat ≤ 15 := by
  unfold FirmwareAt; decide

theorem witness_ManeuverMicroSteps :
    FirmwareAt .mLed (at' .mLed) ∧ FirmwareAt .mStopcmd (at' .mStopcmd) ∧
      FirmwareAt .mPzero (at' .mPzero) ∧ FirmwareAt .mFstart (at' .mFstart) ∧
      FirmwareAt .mFstop (at' .mFstop) ∧ FirmwareAt .mPend (at' .mPend) ∧
      clockAccepted false base.params.fastTimer base.params.clockFast ∧
      ¬ clockAccepted false base.params.fastTimer .div128 := by
  unfold FirmwareAt clockAccepted; decide

theorem witness_DutyLoops :
    FirmwareAt .mOn (at' .mOn) ∧ FirmwareAt .mOncmd { at' .mOncmd with k := .rotate } ∧
      FirmwareAt .mOff { at' .mOff with k := .shortSide } ∧ FirmwareAt .mOffcmd (at' .mOffcmd) ∧
      (at' .mOn).k = .longSide ∧ ({ at' .mOncmd with k := .rotate } : State).k = .rotate ∧
      ({ at' .mOff with k := .shortSide } : State).k = .shortSide := by
  unfold FirmwareAt; decide

theorem witness_AbortInsideAWindow :
    let s := { edgePending 3 with spc := .mOn }
    s.mainProgram = .application ∧ irqEnabled (.ext .l0) s = true ∧
      irqSlot (.ext .l0) s = abortHandle ∧ s.k ≠ .stop ∧ s.spc = .mOn ∧
      ∀ l ∈ [Label.mOncmd, .mOff, .mOffcmd], ({ s with spc := l } : State).spc = l ∧
        irqEnabled (.ext .l0) { s with spc := l } = true := by decide

theorem witness_StepRunsTheNamedEvent :
    let s := { base with trace := [0x80000000#32] }
    s.trace = 0x80000000#32 :: [] ∧ decode 0x80000000#32 none = .ok (.evTick 0) ∧
      (Instr.evTick 0).isEvent = true := by decide

theorem witness_StepRunsTheNamedEvent_command :
    let ws : List Word := [0x13000000, 0x14000000, 7]
    let s := { program ws with pc := 1, trace := [0x84000000#32] }
    s.trace = 0x84000000#32 :: [] ∧ decode 0x84000000#32 none = .ok .evMain ∧ s.refused = none ∧
      s.mainProgram = .driverProgram ws ∧ ws[s.pc]? = some 0x14000000#32 ∧
      decode 0x14000000#32 ws[s.pc + 1]? = .ok (.tmrSetval 0 7) ∧
      (Instr.tmrSetval 0 7).isEvent = false := by decide

theorem witness_FreeStepRunsAnEnabledAgent : base.trace = [] ∧ base.refused = none := by decide

theorem witness_PlacedCommandRunsNext :
    base.refused = none ∧ decodeTableWord 32 0x33100030 = some (.extiSetcb 1 3) ∧
      (Instr.extiSetcb 1 3).isEvent = false := by decide

theorem witness_RefusalIsFinal :
    ∃ s', exec (.evTick 2) (counting .fpwm 0 0) = .next s' ∧ (counting .fpwm 0 0).refused = none ∧
      s'.refused ≠ none ∧ s'.refused = some .pwmCountingNotModelled :=
  ⟨_, rfl, rfl, by decide, rfl⟩

theorem witness_ProgramAndParametersNeverChange :
    (∃ s', exec .evMain base = .next s') ∧
      ∃ s', step { base with trace := [0x84000000#32] } = .next s' := ⟨⟨_, rfl⟩, ⟨_, rfl⟩⟩

theorem witness_GlobalEnableIsSetByStartOnly :
    (∃ s', exec (.tmrStart 2 0) base = .next s' ∧ base.gie = false ∧ s'.gie = true) ∧
      (∃ s', exec .evMain (at' .rTstart) = .next s' ∧ s'.gie = true) ∧
      ∃ s', exec .evMain (program [0x12000000#32]) = .next s' ∧ s'.gie = true :=
  ⟨⟨_, rfl, rfl, rfl⟩, ⟨_, rfl, rfl⟩, ⟨_, rfl, rfl⟩⟩

theorem witness_RunStateWriters :
    (∃ s', exec (.evIrq 0) (edgePending 3) = .next s' ∧ s'.runState ≠ (edgePending 3).runState) ∧
      ∃ s', exec .evMain (at' .sRun) = .next s' ∧ s'.runState ≠ (at' .sRun).runState :=
  ⟨⟨_, rfl, by decide⟩, ⟨_, rfl, by decide⟩⟩

theorem witness_MainContextOnlyResetsTheCounters :
    (∃ s', exec .evMain { at' .rWrap with delayTickCount := 19 } = .next s' ∧ s'.delayTickCount = 2) ∧
      ∀ a, Instr.evMain ≠ .evIrq a := ⟨⟨_, rfl, rfl⟩, fun _ h => by cases h⟩

theorem witness_OutputLogOnlyGrows :
    ∃ s', exec .evMain (at' .sCarstop) = .next s' ∧ s'.out = [.carStop] := ⟨_, rfl, rfl⟩

theorem witness_StepKeepsTimerInvariants :
    ∃ s', step { base with trace := [0x84000000#32] } = .next s' ∧ countsFit base ∧ clocksValid base ∧
      enablesMatchMode base ∧ runningImpliesEnabled base := by
  refine ⟨_, rfl, fun t => ?_, fun t => ?_, fun t => ?_, fun t => ?_⟩ <;> cases t <;> decide

theorem witness_StepKeepsLocalsMatchLabel :
    ∃ s', localsMatchLabel { at' .mOff with pwmTickCount := 5, trace := [0x84000000#32] } ∧
      step { at' .mOff with pwmTickCount := 5, trace := [0x84000000#32] } = .next s' ∧
      s'.spc = .mOffcmd := by
  refine ⟨_, ?_, rfl, rfl⟩
  simp [localsMatchLabel, at', base, State.reset]

theorem witness_StepKeepsLevelsMatchOut :
    ∃ s', levelsMatchOut { at' .sCarstop with trace := [0x84000000#32] } ∧
      step { at' .sCarstop with trace := [0x84000000#32] } = .next s' ∧ s'.motor = .stopped := by
  refine ⟨_, ⟨?_, ?_⟩, rfl, rfl⟩ <;> simp [at', base, State.reset, lastMotor, lastLed]

end Sys2Proof.Tests
end

section
/-! SUPPORT. What one instruction can do to the registers of a timer, said once, and the four timer
invariants that follow from it. -/

namespace Sys2Proof.Machine

/-! ### The registers of one timer after an instruction -/

/-- A timer keeps its configuration: at most its count, its flags and its callback changed, and a
count of w bits is one of w bits again. -/
structure KeepsConfig (w : Nat) (r r' : TimerRegs) : Prop where
  ocr : r'.ocr = r.ocr
  wgm : r'.wgm = r.wgm
  cs : r'.cs = r.cs
  toie : r'.toie = r.toie
  ocie : r'.ocie = r.ocie
  cnt : r.cnt.toNat < 2 ^ w → r'.cnt.toNat < 2 ^ w

@[refl] theorem KeepsConfig.refl (w : Nat) (r : TimerRegs) : KeepsConfig w r r :=
  ⟨rfl, rfl, rfl, rfl, rfl, id⟩

theorem KeepsConfig.trans {w : Nat} {r r' r'' : TimerRegs} (h : KeepsConfig w r r')
    (h' : KeepsConfig w r' r'') : KeepsConfig w r r'' :=
  ⟨h'.ocr.trans h.ocr, h'.wgm.trans h.wgm, h'.cs.trans h.cs, h'.toie.trans h.toie,
    h'.ocie.trans h.ocie, h'.cnt ∘ h.cnt⟩

theorem KeepsConfig.setCount (w : Nat) (r : TimerRegs) (v : Half) :
    KeepsConfig w r { r with cnt := truncTo w v } :=
  ⟨rfl, rfl, rfl, rfl, rfl, fun _ => truncTo_lt w v⟩

/-- Everything an instruction can leave in the registers of timer t, where gie' is I after it. -/
inductive RegsEffect (s : State) (gie' : Bool) (t : TimerId) : TimerRegs → Prop where
  | keeps (r : TimerRegs) (h : KeepsConfig (s.width t) (s.timer t) r) : RegsEffect s gie' t r
  | clock (c : Clock) (hc : clockAccepted s.params.t2ExternalClock t c)
    (hg : c = .off ∨ gie' = true) : RegsEffect s gie' t { s.timer t with cs := c }
  | init (m : WaveMode) (b c : Code) (cv ic : Half) (cb : Code) :
    RegsEffect s gie' t (configured (s.width t) m b c cv ic cb)
  | clear (cb : Code) : RegsEffect s gie' t { TimerRegs.reset with cb := cb }

/-- What an instruction does to the timers, and to what their invariants depend on. -/
structure TimersEffect (s s' : State) : Prop where
  params : s'.params = s.params
  gie : s.gie = true → s'.gie = true
  regs : ∀ t, RegsEffect s s'.gie t (s'.timer t)

/-- An instruction that keeps every timer's configuration. -/
theorem TimersEffect.of_keeps {s s' : State} (hp : s'.params = s.params) (hg : s'.gie = s.gie)
    (h : ∀ t, KeepsConfig (s.width t) (s.timer t) (s'.timer t)) : TimersEffect s s' :=
  ⟨hp, fun hi => hg.trans hi, fun t => .keeps _ (h t)⟩

/-- An instruction that leaves the timers alone. -/
theorem TimersEffect.of_timers_eq {s s' : State} (hp : s'.params = s.params)
    (hg : s'.gie = s.gie) (h : s'.timers = s.timers) : TimersEffect s s' :=
  .of_keeps hp hg fun t => by rw [timer_of_timers_eq h]

/-- An instruction that writes one timer. -/
theorem TimersEffect.of_setTimer {s s' : State} {t : TimerId} {r : TimerRegs}
    (hp : s'.params = s.params) (hg : s.gie = true → s'.gie = true)
    (hs : s'.timers = (s.setTimer t r).timers) (hr : RegsEffect s s'.gie t r) :
    TimersEffect s s' where
  params := hp
  gie := hg
  regs u := by
    rw [timer_of_timers_eq hs u]
    exact forall_timer_setTimer (P := RegsEffect s s'.gie) hr (fun u => .keeps _ (.refl ..)) u

/-! ### Every instruction has such an effect -/

theorem CommandEffect.timers {s s' : State} (h : CommandEffect s s') : TimersEffect s s' := by
  cases h with
  | failed c hc => exact .of_timers_eq rfl rfl rfl
  | init t m b c cv ic cb => exact .of_setTimer rfl id rfl (.init m b c cv ic cb)
  | callback t h => exact .of_setTimer rfl id rfl (.keeps _ ⟨rfl, rfl, rfl, rfl, rfl, id⟩)
  | start t c hc => exact .of_setTimer rfl (fun _ => rfl) rfl (.clock c hc (.inr rfl))
  | stop t => exact .of_setTimer rfl id rfl (.clock .off (by simp [clockAccepted]) (.inl rfl))
  | count t v => exact .of_setTimer rfl id rfl (.keeps _ (.setCount ..))
  | clear t => exact .of_setTimer rfl id rfl (.clear _)
  | read v => exact .of_timers_eq rfl rfl rfl
  | line l en edge xcb => exact .of_timers_eq rfl rfl rfl

theorem tick_timers (t : TimerId) (s : State) : TimersEffect s (tick t s) := by
  rcases tick_cases t s with ⟨-, e⟩ | ⟨-, e⟩ | ⟨-, e⟩ <;> rw [e]
  · exact .of_setTimer rfl id rfl (.keeps _ ⟨rfl, rfl, rfl, rfl, rfl, normalCount_lt s t _⟩)
  · exact .of_setTimer rfl id rfl (.keeps _ ⟨rfl, rfl, rfl, rfl, rfl, ctcCount_lt s t _ _⟩)
  · exact .of_timers_eq rfl rfl rfl

theorem setTimer_keepsConfig {s : State} {t : TimerId} {r : TimerRegs}
    (h : KeepsConfig (s.width t) (s.timer t) r) (u : TimerId) :
    KeepsConfig (s.width u) (s.timer u) ((s.setTimer t r).timer u) :=
  forall_timer_setTimer (P := fun u => KeepsConfig (s.width u) (s.timer u)) h (fun _ => .refl ..) u

theorem clearFlag_keepsConfig (src : IrqSource) (s : State) (u : TimerId) :
    KeepsConfig (s.width u) (s.timer u) ((clearFlag src s).timer u) := by
  cases src with
  | ext l => exact .refl ..
  | ovf t =>
    exact setTimer_keepsConfig (r := { s.timer t with tov := false })
      ⟨rfl, rfl, rfl, rfl, rfl, id⟩ u
  | comp t =>
    exact setTimer_keepsConfig (r := { s.timer t with ocf := false })
      ⟨rfl, rfl, rfl, rfl, rfl, id⟩ u

theorem clearFlag_params (src : IrqSource) (s : State) : (clearFlag src s).params = s.params := by
  cases src <;> rfl

theorem fastTick_keepsConfig (s : State) (u : TimerId) :
    KeepsConfig (s.width u) (s.timer u) ((fastTick s).timer u) := by
  rw [fastTick_eq]
  exact setTimer_keepsConfig (.setCount ..) u

theorem slowTick_keepsConfig (s : State) (u : TimerId) :
    KeepsConfig (s.width u) (s.timer u) ((slowTick s).timer u) := by
  rw [slowTick_eq]
  exact setTimer_keepsConfig (.setCount ..) u

/-- The re-arm of a tick callback and the cleared flag keep every timer's configuration. -/
theorem dispatch_keepsConfig (src : IrqSource) (s : State) (u : TimerId) :
    KeepsConfig (s.width u) (s.timer u) ((dispatch src s).timer u) := by
  have hc := clearFlag_keepsConfig src s u
  have hw := width_of_params_eq (clearFlag_params src s) u
  rcases dispatch_cases src s with ⟨-, e⟩ | ⟨-, e⟩ | ⟨-, e⟩ | ⟨-, e⟩ | ⟨-, e⟩ <;> rw [e]
  · exact hc
  · exact hc.trans (hw ▸ fastTick_keepsConfig (clearFlag src s) u)
  · exact hc.trans (hw ▸ slowTick_keepsConfig (clearFlag src s) u)
  · exact hc
  · exact .refl ..

theorem dispatch_timers (src : IrqSource) (s : State) : TimersEffect s (dispatch src s) := by
  obtain ⟨ts, ls, pwm, delay, rs, r, e⟩ := dispatch_frame src s
  exact .of_keeps (by rw [e]) (by rw [e]) (dispatch_keepsConfig src s)

theorem MicroEffect.timers {s s' : State} (h : MicroEffect s s') : TimersEffect s s' := by
  cases h with
  | command s1 l hc => exact ⟨hc.timers.params, hc.timers.gie, hc.timers.regs⟩
  | plain os l d p k pwm delay rs _ _ _ =>
    obtain ⟨m, ls, e⟩ := emitAll_eq os s
    rw [e]
    exact .of_timers_eq rfl rfl rfl

theorem exec_timers {i : Instr} {s s' : State} (h : exec i s = .next s') : TimersEffect s s' := by
  cases exec_effect h with
  | command _ _ _ hc => exact hc.timers
  | tick t => exact tick_timers t s
  | edge l => exact .of_timers_eq rfl rfl rfl
  | dispatch src => exact dispatch_timers src s
  | button v => exact .of_timers_eq rfl rfl rfl
  | micro => exact (microStep_effect s).timers
  | program _ s1 n _ _ hc => exact ⟨hc.timers.params, hc.timers.gie, hc.timers.regs⟩
  | badWord => exact .of_timers_eq rfl rfl rfl

/-! ### The invariants -/

section
variable {s : State} {gie' : Bool} {t : TimerId} {r : TimerRegs}

/-- Counts and compare values keep to W(t) bits (10_state.md R35, R36). -/
theorem RegsEffect.counts_lt (h : RegsEffect s gie' t r)
    (hi : (s.timer t).cnt.toNat < 2 ^ s.width t ∧ (s.timer t).ocr.toNat < 2 ^ s.width t) :
    r.cnt.toNat < 2 ^ s.width t ∧ r.ocr.toNat < 2 ^ s.width t := by
  cases h with
  | keeps _ hk => exact ⟨hk.cnt hi.1, hk.ocr ▸ hi.2⟩
  | clock => exact hi
  | init m b c cv ic cb => exact ⟨truncTo_lt _ ic, truncTo_lt _ cv⟩
  | clear => exact ⟨Nat.two_pow_pos _, Nat.two_pow_pos _⟩

/-- A clock select comes from START, which checks it, or is off (10_state.md R39). -/
theorem RegsEffect.clockValid (h : RegsEffect s gie' t r)
    (hi : clockValid s.params.t2ExternalClock t (s.timer t).cs = true) :
    clockValid s.params.t2ExternalClock t r.cs = true := by
  rw [clockValid_iff] at hi ⊢
  cases h with
  | keeps _ hk => rwa [hk.cs]
  | clock c hc => exact hc
  | init => simp [configured, clockAccepted]
  | clear => simp [TimerRegs.reset, clockAccepted]

/-- Only INIT writes mode and enables, together and by one table (40_timer_driver.md R123). -/
theorem RegsEffect.enables_match (h : RegsEffect s gie' t r)
    (hi : ((s.timer t).toie = true → (s.timer t).wgm = .normal) ∧
      ((s.timer t).ocie = true → (s.timer t).wgm = .ctc)) :
    (r.toie = true → r.wgm = .normal) ∧ (r.ocie = true → r.wgm = .ctc) := by
  cases h with
  | keeps _ hk => rwa [hk.toie, hk.ocie, hk.wgm]
  | clock => exact hi
  | init => simp [configured]
  | clear => simp [TimerRegs.reset]

/-- A clock select that is not off was set with I (40_timer_driver.md R125), or was there before. -/
theorem RegsEffect.gie_of_running (h : RegsEffect s gie' t r) (hrun : r.cs ≠ .off) :
    (s.timer t).cs ≠ .off ∨ gie' = true := by
  cases h with
  | keeps _ hk => exact .inl (hk.cs ▸ hrun)
  | clock c _ hg => exact .inr (hg.resolve_left hrun)
  | init => exact absurd rfl hrun
  | clear => exact absurd rfl hrun

end

section
variable {s s' : State}

theorem TimersEffect.countsFit (h : TimersEffect s s') (hi : countsFit s) : countsFit s' := by
  intro t
  rw [width_of_params_eq h.params]
  exact (h.regs t).counts_lt (hi t)

theorem TimersEffect.clocksValid (h : TimersEffect s s') (hi : clocksValid s) : clocksValid s' := by
  intro t
  rw [h.params]
  exact (h.regs t).clockValid (hi t)

theorem TimersEffect.enablesMatchMode (h : TimersEffect s s') (hi : enablesMatchMode s) :
    enablesMatchMode s' :=
  fun t => (h.regs t).enables_match (hi t)

theorem TimersEffect.runningImpliesEnabled (h : TimersEffect s s')
    (hi : runningImpliesEnabled s) : runningImpliesEnabled s' := by
  intro t hrun
  have hrun : (s'.timer t).cs ≠ .off := by simpa [running] using hrun
  rcases (h.regs t).gie_of_running hrun with hold | hgie
  · exact h.gie (hi t (by simpa [running] using hold))
  · exact hgie

end

/-- Settles O55: every event of a step has a TimersEffect, and each of the four invariants follows
from that; none of them depends on the trace or the choice counter that the fetch uses up. -/
theorem stepKeepsTimerInvariants : Obligations.StepKeepsTimerInvariants := by
  intro s s' h
  obtain ⟨i, tr, n, -, hx⟩ := step_next h
  have he : TimersEffect { s with trace := tr, choices := n } s' := exec_timers hx
  exact ⟨he.countsFit, he.clocksValid, he.enablesMatchMode, he.runningImpliesEnabled⟩

end Sys2Proof.Machine
end

section
/-! SUPPORT. The main context and the fetch: EV.MAIN at a command, the step of a named event, a command
placed at the fetch, and the state after reset. -/

namespace Sys2Proof.Machine

/-! ### EV.MAIN at a command -/

/-- The words at PC decode to the command i of the driver program. -/
structure CommandAtPc (i : Instr) (s : State) : Prop where
  live : s.refused = none
  command : i.isEvent = false
  words : ∃ words w0, s.mainProgram = .driverProgram words ∧ words[s.pc]? = some w0 ∧
    decode w0 words[s.pc + 1]? = .ok i

theorem exec_evMain_eq (s : State) : exec .evMain s = execEvMain s := rfl

theorem exec_evMain_command {i : Instr} {s : State} (h : CommandAtPc i s) :
    exec .evMain s = withPc (s.pc + i.length) (exec i s) := by
  obtain ⟨words, w0, hm, hw, hd⟩ := h.words
  have hlt : s.pc < words.length := (List.getElem?_eq_some_iff.1 hw).1
  have hen : mainEnabled s = true := by simp [mainEnabled, mainHasStep, live, h.live, hm, hlt]
  have hrun : runCommand i s = exec i s := runCommand_eq i s h.command
  simp only [exec_evMain_eq, execEvMain, if_pos hen, hm, programStep, hw, hd, h.command, hrun,
    Bool.false_eq_true, if_false]

theorem exec_evMain_command_next {i : Instr} {s : State} (h : CommandAtPc i s) :
    ∃ s', exec i s = .next s' ∧ exec .evMain s = .next { s' with pc := s.pc + i.length } := by
  obtain ⟨s', hs, -⟩ := exec_command i s h.command
  exact ⟨s', hs, by rw [exec_evMain_command h, hs, withPc]⟩

/-- Settles O36: EV.MAIN runs the command by exec, and exec of a command always answers. -/
theorem mainExecutesTheCommandAtPc : Obligations.MainExecutesTheCommandAtPc := by
  intro s words w0 i hr hm hw hd hi
  exact exec_evMain_command_next ⟨hr, hi, words, w0, hm, hw, hd⟩

/-! ### The step of a named event -/

theorem fetch_named {s : State} {w : Word} {rest : List Word} {i : Instr} (ht : s.trace = w :: rest)
    (hd : decode w none = .ok i) (hi : i.isEvent = true) :
    fetch s = .ok (i, { s with trace := rest }) := by
  simp [fetch, ht, eventOfWord, hd, hi]

theorem step_named {s : State} {w : Word} {rest : List Word} {i : Instr} (ht : s.trace = w :: rest)
    (hd : decode w none = .ok i) (hi : i.isEvent = true) :
    step s = exec i { s with trace := rest } := by
  simp [step, fetch_named ht hd hi]

/-- A step named EV.MAIN runs the command at PC. -/
theorem step_evMain_command {s : State} {w : Word} {rest : List Word} {i : Instr}
    (ht : s.trace = w :: rest) (hd : decode w none = .ok .evMain) (h : CommandAtPc i s) :
    ∃ s', exec i { s with trace := rest } = .next s' ∧
      step s = .next { s' with pc := s.pc + i.length } := by
  rw [step_named ht hd rfl]
  exact exec_evMain_command_next (s := { s with trace := rest }) ⟨h.live, h.command, h.words⟩

/-- Settles O46: the fetch takes the named event, and EV.MAIN the command at PC. -/
theorem stepRunsTheNamedEvent : Obligations.StepRunsTheNamedEvent := by
  constructor
  · intro s w rest i ht hd hi
    exact step_named ht hd hi
  · intro s w w0 rest words i ht hd hr hm hw hdc hi
    exact step_evMain_command ht hd ⟨hr, hi, words, w0, hm, hw, hdc⟩

/-! ### A command placed at the fetch -/

theorem exists_of_withConfig {mk : Half → Half → Instr} {w1 : Option Word} {i : Instr}
    (h : withConfig mk w1 = .ok i) : ∃ cv ic, i = mk cv ic := by
  unfold withConfig at h
  split at h
  · cases h
  · next cv ic _ => cases h; exact ⟨cv, ic, rfl⟩

theorem exists_of_withValue {mk : Half → Instr} {w1 : Option Word} {i : Instr}
    (h : withValue mk w1 = .ok i) : ∃ v, i = mk v := by
  unfold withValue at h
  split at h
  · cases h
  · next cv ic _ =>
    split at h
    · cases h; exact ⟨ic, rfl⟩
    · cases h

theorem eq_of_inRange {i j : Instr} (h : inRange j = .ok i) : i = j := by
  unfold inRange at h
  split at h
  · cases h; rfl
  · cases h

/-- A decoded row is an instruction of that row (30_encoding.md R102). -/
theorem op_of_decodeRow {o : Op} {w0 : Word} {w1 : Option Word} {i : Instr}
    (h : decodeRow o w0 w1 = .ok i) : i.op = o := by
  cases o
  case tmrInit => obtain ⟨_, _, rfl⟩ := exists_of_withConfig h; rfl
  case tmgrInit => obtain ⟨_, _, rfl⟩ := exists_of_withConfig h; rfl
  case tmrSetval => obtain ⟨_, rfl⟩ := exists_of_withValue h; rfl
  case tmgrSetval => obtain ⟨_, rfl⟩ := exists_of_withValue h; rfl
  case evTick => obtain rfl := eq_of_inRange h; rfl
  case evExtrig => obtain rfl := eq_of_inRange h; rfl
  case evIrq => obtain rfl := eq_of_inRange h; rfl
  all_goals cases h; rfl

/-- A decoded instruction is of the row that U and OP select (30_encoding.md R102). -/
theorem lookupOp_of_decode {w0 : Word} {w1 : Option Word} {i : Instr} (h : decode w0 w1 = .ok i) :
    lookupOp (fieldU w0) (fieldOP w0) = .ok i.op := by
  unfold decode at h
  split at h
  · cases h
  · next o ho =>
    split at h
    · rw [ho, op_of_decodeRow h]
    · cases h

/-- Unit 8 holds the events (30_encoding.md R102). -/
theorem format_of_lookupOp_eight (op : Code) :
    ∀ o ∈ (lookupOp 8 op).toOption, o.format = .ev := by
  revert op; decide

theorem fieldU_ne_eight {w0 : Word} {w1 : Option Word} {i : Instr} (h : decode w0 w1 = .ok i)
    (hi : i.isEvent = false) : fieldU w0 ≠ 8 := by
  intro hu
  have hl := lookupOp_of_decode h
  rw [hu] at hl
  have := format_of_lookupOp_eight (fieldOP w0) i.op (by rw [hl]; rfl)
  simp [Instr.isEvent, this] at hi

/-- The second word is looked at only where U and OP name a row of two words (30_encoding.md
R91). -/
theorem decode_of_wordLength_ne_two {w0 : Word} (h : wordLength w0 ≠ 2) (w1 w1' : Option Word) :
    decode w0 w1 = decode w0 w1' := by
  unfold wordLength at h
  unfold decode
  split
  · rfl
  · next o ho =>
    simp only [ho] at h
    have hrow : decodeRow o w0 w1 = decodeRow o w0 w1' := by
      cases o <;> first | rfl | exact absurd rfl h
    rw [hrow]

/-- The words placed at an index stand there, whatever stood before. -/
theorem placeWords_getElem? (program ws : List Word) (n k : Nat) (hk : k < ws.length) :
    (placeWords program n ws)[n + k]? = ws[k]? := by
  have hlen : ((program ++ List.replicate (n - program.length) 0).take n).length = n := by
    simp; omega
  unfold placeWords
  rw [List.getElem?_append_left (by simp; omega),
    List.getElem?_append_right (by omega), hlen, Nat.add_sub_cancel_left]

/-- A table word that decodes to a command is placed as the command at PC, with EV.MAIN named
next. -/
theorem placed_command {s : State} {w0 w1 : Word} {i : Instr} (hr : s.refused = none)
    (hd : decode w0 (some w1) = .ok i) (hi : i.isEvent = false) :
    (placeInstruction w0 w1 s).trace = Op.evMain.pattern :: s.trace ∧
      CommandAtPc i (placeInstruction w0 w1 s) := by
  rw [placeInstruction, if_neg (fieldU_ne_eight hd hi)]
  refine ⟨rfl, hr, hi, _, w0, rfl, ?_, ?_⟩
  · refine (placeWords_getElem? _ _ s.pc 0 ?_).trans ?_
    · split <;> simp
    · split <;> rfl
  · split
    · rw [placeWords_getElem? _ _ s.pc 1 (by simp)]; exact hd
    · next h2 => rw [decode_of_wordLength_ne_two h2 _ (some w1)]; exact hd

/-- Settles O48: the placed command stands at PC and the named event is EV.MAIN, so
step_evMain_command applies. -/
theorem placedCommandRunsNext : Obligations.PlacedCommandRunsNext := by
  intro s nbits w i hr hdw hi
  have hd : decode (tableWords nbits w).1 (some (tableWords nbits w).2) = .ok i := by
    rw [decodeTableWord_eq] at hdw
    cases he : decode (tableWords nbits w).1 (some (tableWords nbits w).2) with
    | error e => simp [he, Except.toOption] at hdw
    | ok j => simpa [he, Except.toOption] using hdw
  obtain ⟨ht, hc⟩ := placed_command hr hd hi
  have hpc : (s.withFetchWord nbits w).pc = s.pc := by
    unfold State.withFetchWord placeInstruction
    split <;> rfl
  rw [← hpc]
  exact step_evMain_command ht (by decide) hc

/-! ### The state after reset -/

/-- Settles O59, field by field, with one case for each timer and each line. -/
theorem resetState : Obligations.ResetState :=
  ⟨fun t => by cases t <;> rfl, fun l => by cases l <;> rfl,
    rfl, rfl, rfl, rfl, rfl, rfl, rfl, rfl, rfl, rfl⟩

end Sys2Proof.Machine
end

section
/-! SUPPORT. Who writes I, runState and the output log. -/

namespace Sys2Proof.Machine

/-! ### I: no operation but START's writes it (10_state.md R44) -/

section
variable (s : State)

@[simp] theorem issue_snd_gie (x : ResultCode × State) : (issue x).gie = x.2.gie := rfl

@[simp] theorem driverInit_gie (p : Bool) (id a b c : Code) (cv ic : Half) :
    (driverInit p id a b c cv ic s).2.gie = s.gie := by
  rcases driverInit_cases p id a b c cv ic s with e | ⟨_, _, -, -, -, -, e⟩ <;> simp [e]

@[simp] theorem driverSetcb_gie (id h : Code) : (driverSetcb id h s).2.gie = s.gie := by
  rcases driverSetcb_cases id h s with ⟨e, -⟩ | ⟨e, -⟩ | ⟨_, -, -, e⟩ <;> simp [e]

@[simp] theorem driverStop_gie (id : Code) : (driverStop id s).2.gie = s.gie := by
  rcases driverStop_cases id s with e | ⟨_, -, e⟩ <;> simp [e]

@[simp] theorem driverSetval_gie (id : Code) (v : Half) : (driverSetval id v s).2.gie = s.gie := by
  rcases driverSetval_cases id v s with e | ⟨_, -, e⟩ <;> simp [e]

@[simp] theorem driverReset_gie (id : Code) : (driverReset id s).2.gie = s.gie := by
  rcases driverReset_cases id s with e | ⟨_, -, e⟩ <;> simp [e]

@[simp] theorem driverRdcnt_gie (id : Code) : (driverRdcnt id s).2.gie = s.gie := by
  rcases driverRdcnt_cases id s with e | ⟨_, -, e⟩ <;> simp [e]

@[simp] theorem mgrInit_gie (p : Bool) (id a b c h : Code) (cv ic : Half) :
    (mgrInit p id a b c h cv ic s).2.gie = s.gie := by
  rcases mgrInit_cases p id a b c h cv ic s with ⟨e, -⟩ | ⟨e, -⟩ | ⟨_, _, -, -, -, -, e⟩ <;>
    simp [e]

@[simp] theorem mgrStop_gie (id : Code) : (mgrStop id s).2.gie = s.gie := by
  rw [mgrStop_eq, driverStop_gie]

@[simp] theorem mgrSetval_gie (id : Code) (v : Half) : (mgrSetval id v s).2.gie = s.gie := by
  rw [mgrSetval_eq, driverSetval_gie]

@[simp] theorem extInit_gie (p : Bool) (id a h : Code) : (extInit p id a h s).2.gie = s.gie := by
  rcases extInit_cases p id a h s with ⟨e, -⟩ | ⟨e, -⟩ | ⟨_, _, -, -, -, -, -, e⟩ <;> simp [e]

@[simp] theorem extEnable_gie (id : Code) : (extEnable id s).2.gie = s.gie := by
  rcases extEnable_cases id s with e | ⟨_, -, e⟩ <;> simp [e]

@[simp] theorem extDisable_gie (id : Code) : (extDisable id s).2.gie = s.gie := by
  rcases extDisable_cases id s with e | ⟨_, -, e⟩ <;> simp [e]

@[simp] theorem extSetcb_gie (id h : Code) : (extSetcb id h s).2.gie = s.gie := by
  rcases extSetcb_cases id h s with ⟨e, -⟩ | ⟨e, -⟩ | ⟨_, -, -, e⟩ <;> simp [e]

@[simp] theorem emitSome_gie (o : Option OutEvent) : (emitSome o s).gie = s.gie := by
  cases o <;> rfl

end

/-- Every micro-step but the two that start a timer leaves I alone (44_sequencer.md R249, R257). -/
theorem microStep_gie {s : State} (ht : s.spc ≠ .rTstart) (hf : s.spc ≠ .mFstart) :
    (microStep s).gie = s.gie := by
  cases hl : s.spc <;> simp only [microStep, hl]
  case rTstart => exact absurd hl ht
  case mFstart => exact absurd hl hf
  case bFast => simp [stepBFast]
  case bSlow => simp [stepBSlow]
  case bExti => simp [stepBExti]
  case loop => unfold stepLoop; split <;> rfl
  case sExtiDis => simp [stepSExtiDis]
  case sTstop => simp [stepSTstop]
  case sPoll => unfold stepSPoll; split <;> rfl
  case rExtiEn => simp [stepRExtiEn]
  case rDispatch => unfold stepRDispatch; split_ifs <;> [rfl; rfl; (split <;> rfl)]
  case mOncmd => simp [stepMOncmd]
  case mFstop => simp [stepMFstop]
  all_goals rfl

/-- A command changes I only by setting it, with RES OK (40_timer_driver.md R125). -/
theorem CommandEffect.gie {s s' : State} (h : CommandEffect s s') :
    s'.gie = s.gie ∨ s'.gie = true ∧ s'.res = .ok := by
  cases h with
  | start => exact .inr ⟨rfl, rfl⟩
  | _ => exact .inl rfl

theorem MicroEffect.gie {s s' : State} (h : MicroEffect s s') :
    s'.gie = s.gie ∨ s'.gie = true ∧ s'.res = .ok := by
  cases h with
  | command s1 l hc => exact hc.gie
  | plain os =>
    obtain ⟨m, ls, e⟩ := emitAll_eq os s
    exact .inl (by rw [e])

/-- A command that is no START leaves I alone. -/
theorem exec_gie_of_not_isStart {i : Instr} {s s' : State} (hi : i.isEvent = false)
    (hns : ¬ isStart i) (h : exec i s = .next s') : s'.gie = s.gie := by
  cases i
  case tmrStart id a => exact absurd ⟨id, a, .inl rfl⟩ hns
  case tmgrStart id a => exact absurd ⟨id, a, .inr rfl⟩ hns
  case evTick => cases hi
  case evExtrig => cases hi
  case evIrq => cases hi
  case evButton => cases hi
  case evMain => cases hi
  all_goals cases h; simp

/-- A command keeps I or is a START that sets it with RES OK. -/
theorem exec_command_gie {i : Instr} {s s' : State} (hi : i.isEvent = false)
    (h : exec i s = .next s') : s'.gie = s.gie ∨ s'.gie = true ∧ s'.res = .ok ∧ isStart i := by
  by_cases hs : isStart i
  · obtain ⟨s1, h1, hc⟩ := exec_command i s hi
    obtain rfl : s1 = s' := by simpa [h1] using h
    exact hc.gie.imp_right fun ⟨hg, hr⟩ => ⟨hg, hr, hs⟩
  · exact .inl (exec_gie_of_not_isStart hi hs h)

/-- What EV.MAIN answers in a driver program: the command at PC run by exec, or a refusal
(30_encoding.md R104, 60_exceptions.md R306). -/
theorem exec_evMain_program {s s' : State} {words : List Word}
    (hm : s.mainProgram = .driverProgram words) (h : exec .evMain s = .next s') :
    (∃ w0 j s1, words[s.pc]? = some w0 ∧ decode w0 words[s.pc + 1]? = .ok j ∧ j.isEvent = false ∧
      exec j s = .next s1 ∧ s' = { s1 with pc := s.pc + j.length }) ∨ ∃ r, s' = raise r s := by
  simp only [exec_evMain_eq, execEvMain, hm] at h
  split at h
  · unfold programStep at h
    split at h
    · cases h
    · next w0 hw =>
      split at h
      · cases h; exact .inr ⟨_, rfl⟩
      · next j hd =>
        split at h
        · cases h; exact .inr ⟨_, rfl⟩
        · next hj =>
          have hj : j.isEvent = false := by simpa using hj
          obtain ⟨s1, hs1, -⟩ := exec_command j s hj
          rw [runCommand_eq j s hj, hs1] at h
          cases h
          exact .inl ⟨w0, j, s1, hw, hd, hj, hs1, rfl⟩
  · cases h

/-- A START is run: as a bare command, by the firmware, or by EV.MAIN in a driver program. -/
def RunsStart (i : Instr) (s : State) : Prop :=
  isStart i ∨ i = .evMain ∧ (FirmwareAt .rTstart s ∨ FirmwareAt .mFstart s ∨
    ∃ words w0 j, s.mainProgram = .driverProgram words ∧ words[s.pc]? = some w0 ∧
      decode w0 words[s.pc + 1]? = .ok j ∧ isStart j)

/-- An instruction keeps I, or a START sets it with RES OK. -/
theorem exec_gie {i : Instr} {s s' : State} (h : exec i s = .next s') :
    s'.gie = s.gie ∨ s'.gie = true ∧ s'.res = .ok ∧ RunsStart i s := by
  cases exec_effect h with
  | command _ _ hi _ =>
    exact (exec_command_gie hi h).imp_right fun ⟨hg, hr, hs⟩ => ⟨hg, hr, .inl hs⟩
  | tick t =>
    obtain ⟨ts, r, e⟩ := tick_frame t s
    exact .inl (by rw [e])
  | edge => exact .inl rfl
  | dispatch src =>
    obtain ⟨ts, ls, pwm, delay, rs, r, e⟩ := dispatch_frame src s
    exact .inl (by rw [e])
  | button => exact .inl rfl
  | micro hr hm =>
    by_cases ht : s.spc = .rTstart
    · exact (microStep_effect s).gie.imp_right fun ⟨hg, hres⟩ =>
        ⟨hg, hres, .inr ⟨rfl, .inl ⟨hr, hm, ht⟩⟩⟩
    by_cases hf : s.spc = .mFstart
    · exact (microStep_effect s).gie.imp_right fun ⟨hg, hres⟩ =>
        ⟨hg, hres, .inr ⟨rfl, .inr (.inl ⟨hr, hm, hf⟩)⟩⟩
    · exact .inl (microStep_gie ht hf)
  | program words s1 n _ hm _ =>
    rcases exec_evMain_program hm h with ⟨w0, j, s2, hw, hd, hj, hx, e⟩ | ⟨r, e⟩ <;> rw [e]
    · exact (exec_command_gie hj hx).imp_right fun ⟨hg, hres, hs⟩ =>
        ⟨hg, hres, .inr ⟨rfl, .inr (.inr ⟨words, w0, j, hm, hw, hd, hs⟩)⟩⟩
    · exact .inl rfl
  | badWord => exact .inl rfl

/-- Settles O51: I is kept or set, and set only where a START is run. -/
theorem globalEnableIsSetByStartOnly : Obligations.GlobalEnableIsSetByStartOnly := by
  intro i s s' h
  rcases exec_gie h with hkept | ⟨hset, hres, hstart⟩
  · exact ⟨fun hi => hkept.trans hi,
      fun h0 h1 => absurd (h1.symm.trans (hkept.trans h0)) (by decide)⟩
  · exact ⟨fun _ => hset, fun _ _ => ⟨hres, hstart⟩⟩

/-! ### runState: Abort and S_RUN write it (10_state.md R48) -/

theorem clearFlag_runState (src : IrqSource) (s : State) :
    (clearFlag src s).runState = s.runState := by
  cases src <;> rfl

/-- A dispatch keeps runState, or its slot holds Abort (44_sequencer.md R233). -/
theorem dispatch_runState (src : IrqSource) (s : State) :
    (dispatch src s).runState = s.runState ∨
      (dispatch src s).runState = .stopped ∧ irqSlot src s = abortHandle := by
  have hc := clearFlag_runState src s
  rcases dispatch_cases src s with ⟨-, e⟩ | ⟨-, e⟩ | ⟨-, e⟩ | ⟨hslot, e⟩ | ⟨-, e⟩ <;> rw [e]
  · exact .inl hc
  · exact .inl (by rw [fastTick_eq]; exact hc)
  · exact .inl (by rw [slowTick_eq]; exact hc)
  · exact .inr ⟨rfl, hslot⟩
  · exact .inl rfl

/-- A micro-step keeps runState, or is S_RUN's (44_sequencer.md R245). -/
theorem MicroEffect.runState {s s' : State} (h : MicroEffect s s') :
    s'.runState = s.runState ∨ s'.runState = .running ∧ s.spc = .sRun := by
  cases h with
  | command s1 l hc => exact .inl hc.frame.runState
  | plain os l d p k pwm delay rs _ _ hr => exact hr

/-- Settles O52: of all effects of an instruction only an Abort's dispatch and S_RUN write
runState. -/
theorem runStateWriters : Obligations.RunStateWriters := by
  intro i s s' h hne
  cases exec_effect h with
  | command _ _ _ hc => exact absurd hc.frame.runState hne
  | tick t =>
    obtain ⟨ts, r, e⟩ := tick_frame t s
    exact absurd (by rw [e]) hne
  | edge => exact absurd rfl hne
  | dispatch src =>
    obtain ⟨hst, hslot⟩ := (dispatch_runState src s).resolve_left hne
    exact .inl ⟨hst, src, rfl, hslot⟩
  | button => exact absurd rfl hne
  | micro hr hm =>
    obtain ⟨hrun, hl⟩ := (microStep_effect s).runState.resolve_left hne
    exact .inr ⟨hrun, rfl, hr, hm, hl⟩
  | program _ _ _ _ _ hc => exact absurd hc.frame.runState hne
  | badWord => exact absurd rfl hne

/-! ### The output log grows (10_state.md R52) -/

theorem MicroEffect.out {s s' : State} (h : MicroEffect s s') : ∃ os, s'.out = s.out ++ os := by
  cases h with
  | command s1 l hc => exact ⟨[], by simp [hc.frame.out]⟩
  | plain os =>
    obtain ⟨m, ls, e⟩ := emitAll_eq os s
    exact ⟨os, by rw [e]⟩

/-- Settles O54: only the firmware's micro-steps emit, and they append. -/
theorem outputLogOnlyGrows : Obligations.OutputLogOnlyGrows := by
  intro i s s' h
  have hkept (he : s'.out = s.out) : ∃ os, s'.out = s.out ++ os ∧ (i ≠ .evMain → os = []) :=
    ⟨[], by simpa using he, fun _ => rfl⟩
  cases exec_effect h with
  | command _ _ _ hc => exact hkept hc.frame.out
  | tick t =>
    obtain ⟨ts, r, e⟩ := tick_frame t s
    exact hkept (by rw [e])
  | edge => exact hkept rfl
  | dispatch src =>
    obtain ⟨ts, ls, pwm, delay, rs, r, e⟩ := dispatch_frame src s
    exact hkept (by rw [e])
  | button => exact hkept rfl
  | micro =>
    obtain ⟨os, hos⟩ := (microStep_effect s).out
    exact ⟨os, hos, fun hi => absurd rfl hi⟩
  | program _ _ _ _ _ hc => exact hkept hc.frame.out
  | badWord => exact hkept rfl

end Sys2Proof.Machine
end

section
/-! SUPPORT. Noninterference of the compare-output fields and the edge modes: every operation, run on a
state with them cleared, does what it does on the state itself, but for them. -/

namespace Sys2Proof.Machine

/-! ### Reading and writing a state with the unread fields cleared -/

section
variable (s : State)

@[simp] theorem eraseUnread_idem : eraseUnread (eraseUnread s) = eraseUnread s := rfl

@[simp] theorem eraseUnread_timer (t : TimerId) :
    (eraseUnread s).timer t = { s.timer t with com := 0 } := by
  cases t <;> rfl

@[simp] theorem eraseUnread_line (l : Line) :
    (eraseUnread s).line l = { s.line l with edge := .low } := by
  cases l <;> rfl

@[simp] theorem eraseUnread_setTimer (t : TimerId) (r : TimerRegs) :
    eraseUnread (s.setTimer t r) = (eraseUnread s).setTimer t { r with com := 0 } := by
  cases t <;> rfl

@[simp] theorem eraseUnread_setLine (l : Line) (r : LineRegs) :
    eraseUnread (s.setLine l r) = (eraseUnread s).setLine l { r with edge := .low } := by
  cases l <;> rfl

@[simp] theorem eraseUnread_width (t : TimerId) : (eraseUnread s).width t = s.width t := rfl

@[simp] theorem eraseUnread_params : (eraseUnread s).params = s.params := rfl

@[simp] theorem eraseUnread_gie : (eraseUnread s).gie = s.gie := rfl

@[simp] theorem eraseUnread_pc : (eraseUnread s).pc = s.pc := rfl

@[simp] theorem eraseUnread_spc : (eraseUnread s).spc = s.spc := rfl

@[simp] theorem eraseUnread_d : (eraseUnread s).d = s.d := rfl

@[simp] theorem eraseUnread_k : (eraseUnread s).k = s.k := rfl

@[simp] theorem eraseUnread_runState : (eraseUnread s).runState = s.runState := rfl

@[simp] theorem eraseUnread_btn : (eraseUnread s).btn = s.btn := rfl

@[simp] theorem eraseUnread_mainProgram : (eraseUnread s).mainProgram = s.mainProgram := rfl

@[simp] theorem live_eraseUnread : live (eraseUnread s) = live s := rfl

end

/-! ### The operations of the driver and the managers -/

/-- A result with the unread fields of its state cleared. -/
def eraseResult (x : ResultCode × State) : ResultCode × State := (x.1, eraseUnread x.2)

@[simp] theorem eraseResult_mk (c : ResultCode) (s : State) :
    eraseResult (c, s) = (c, eraseUnread s) := rfl

/-- An operation that does not read the cleared fields gives one result in two states that differ only
there. -/
theorem eraseResult_congr {f : State → ResultCode × State}
    (hf : ∀ s, eraseResult (f (eraseUnread s)) = eraseResult (f s)) {s s' : State}
    (h : eraseUnread s = eraseUnread s') : eraseResult (f s) = eraseResult (f s') := by
  rw [← hf s, ← hf s', h]

/-- A function that does not read the cleared fields gives one state, but for them, in two states that
differ only there. -/
theorem eraseUnread_congr {f : State → State}
    (hf : ∀ s, eraseUnread (f (eraseUnread s)) = eraseUnread (f s)) {s s' : State}
    (h : eraseUnread s = eraseUnread s') : eraseUnread (f s) = eraseUnread (f s') := by
  rw [← hf s, ← hf s', h]

section
variable (s : State)

theorem driverInit_erase (p : Bool) (id a b c : Code) (cv ic : Half) :
    eraseResult (driverInit p id a b c cv ic (eraseUnread s)) =
      eraseResult (driverInit p id a b c cv ic s) := by
  unfold driverInit
  split
  · cases timerOf id with
    | none => rfl
    | some t =>
      cases modeOf a with
      | none => rfl
      | some m => cases h : subValid m b c <;> simp [h, initRegs]
  · rfl

theorem driverSetcb_erase (id h : Code) :
    eraseResult (driverSetcb id h (eraseUnread s)) = eraseResult (driverSetcb id h s) := by
  unfold driverSetcb
  split
  · rfl
  · cases timerOf id <;> simp

theorem driverStart_erase (id a : Code) :
    eraseResult (driverStart id a (eraseUnread s)) = eraseResult (driverStart id a s) := by
  unfold driverStart
  cases timerOf id with
  | none => rfl
  | some t =>
    cases clockOf a with
    | none => rfl
    | some c =>
      cases h : clockValid s.params.t2ExternalClock t c with
      | false => simp [h]
      | true =>
        have hset :
            eraseUnread ((eraseUnread s).setTimer t { (eraseUnread s).timer t with cs := c }) =
            eraseUnread (s.setTimer t { s.timer t with cs := c }) := by simp
        simp only [eraseUnread_params, h, if_true]
        exact congrArg (fun s => (ResultCode.ok, { s with gie := true })) hset

theorem driverStop_erase (id : Code) :
    eraseResult (driverStop id (eraseUnread s)) = eraseResult (driverStop id s) := by
  unfold driverStop
  cases timerOf id <;> simp

theorem driverSetval_erase (id : Code) (v : Half) :
    eraseResult (driverSetval id v (eraseUnread s)) = eraseResult (driverSetval id v s) := by
  unfold driverSetval
  cases timerOf id <;> simp

theorem driverReset_erase (id : Code) :
    eraseResult (driverReset id (eraseUnread s)) = eraseResult (driverReset id s) := by
  unfold driverReset
  cases timerOf id <;> simp

theorem driverRdcnt_erase (id : Code) :
    eraseResult (driverRdcnt id (eraseUnread s)) = eraseResult (driverRdcnt id s) := by
  unfold driverRdcnt
  cases timerOf id
  · rfl
  · simp; rfl

theorem mgrInit_erase (p : Bool) (id a b c h : Code) (cv ic : Half) :
    eraseResult (mgrInit p id a b c h cv ic (eraseUnread s)) =
      eraseResult (mgrInit p id a b c h cv ic s) := by
  have hinit := driverInit_erase s p id a b c cv ic
  simp only [mgrInit]
  generalize driverInit p id a b c cv ic (eraseUnread s) = x' at *
  generalize driverInit p id a b c cv ic s = x at *
  obtain ⟨r, y⟩ := x
  obtain ⟨r', y'⟩ := x'
  obtain ⟨rfl, hy⟩ := Prod.mk.inj hinit
  have hset := eraseResult_congr (fun s => driverSetcb_erase s id h) hy
  split
  · split
    · dsimp only
      split
      · exact congrArg (fun x : ResultCode × State => (combine r' x.1, x.2)) hset
      · exact Prod.ext rfl hy
    · rfl
  · rfl

theorem mgrStart_erase (id a : Code) :
    eraseResult (mgrStart id a (eraseUnread s)) = eraseResult (mgrStart id a s) := by
  rw [mgrStart_eq, mgrStart_eq, driverStart_erase]

theorem mgrStop_erase (id : Code) :
    eraseResult (mgrStop id (eraseUnread s)) = eraseResult (mgrStop id s) := by
  rw [mgrStop_eq, mgrStop_eq, driverStop_erase]

theorem mgrSetval_erase (id : Code) (v : Half) :
    eraseResult (mgrSetval id v (eraseUnread s)) = eraseResult (mgrSetval id v s) := by
  rw [mgrSetval_eq, mgrSetval_eq, driverSetval_erase]

theorem extInit_erase (p : Bool) (id a h : Code) :
    eraseResult (extInit p id a h (eraseUnread s)) = eraseResult (extInit p id a h s) := by
  unfold extInit
  split
  · split
    · rfl
    · cases lineOf id with
      | none => rfl
      | some l =>
        cases edgeOf a with
        | none => rfl
        | some e => cases h : edgeValid l e <;> simp [h]
  · rfl

theorem extEnable_erase (id : Code) :
    eraseResult (extEnable id (eraseUnread s)) = eraseResult (extEnable id s) := by
  unfold extEnable
  cases lineOf id <;> simp

theorem extDisable_erase (id : Code) :
    eraseResult (extDisable id (eraseUnread s)) = eraseResult (extDisable id s) := by
  unfold extDisable
  cases lineOf id <;> simp

theorem extSetcb_erase (id h : Code) :
    eraseResult (extSetcb id h (eraseUnread s)) = eraseResult (extSetcb id h s) := by
  unfold extSetcb
  split
  · rfl
  · cases lineOf id <;> simp

end

/-! ### Commands -/

theorem issue_erase {x x' : ResultCode × State} (h : eraseResult x' = eraseResult x) :
    eraseUnread (issue x') = eraseUnread (issue x) :=
  congrArg issue h

theorem exec_command_erase (i : Instr) (s : State) (hi : i.isEvent = false) :
    mapNext eraseUnread (exec i (eraseUnread s)) = mapNext eraseUnread (exec i s) := by
  have hnext {x x' : ResultCode × State} (h : eraseResult x' = eraseResult x) :
      mapNext eraseUnread (.next (issue x')) = mapNext eraseUnread (.next (issue x)) :=
    congrArg Host.Outcome.next (issue_erase h)
  cases i
  case tmrInit p id a b c _ cv ic => exact hnext (driverInit_erase s p id a b c cv ic)
  case tmrSetcb id h => exact hnext (driverSetcb_erase s id h)
  case tmrStart id a => exact hnext (driverStart_erase s id a)
  case tmrStop id => exact hnext (driverStop_erase s id)
  case tmrSetval id v => exact hnext (driverSetval_erase s id v)
  case tmrReset id => exact hnext (driverReset_erase s id)
  case tmrRdcnt id => exact hnext (driverRdcnt_erase s id)
  case tmgrInit p id a b c h cv ic => exact hnext (mgrInit_erase s p id a b c h cv ic)
  case tmgrStart id a => exact hnext (mgrStart_erase s id a)
  case tmgrStop id => exact hnext (mgrStop_erase s id)
  case tmgrSetval id v => exact hnext (mgrSetval_erase s id v)
  case extiInit p id a h => exact hnext (extInit_erase s p id a h)
  case extiEnable id => exact hnext (extEnable_erase s id)
  case extiDisable id => exact hnext (extDisable_erase s id)
  case extiSetcb id h => exact hnext (extSetcb_erase s id h)
  all_goals cases hi

/-! ### Clock edges and dispatch -/

theorem tick_erase (t : TimerId) (s : State) :
    eraseUnread (tick t (eraseUnread s)) = eraseUnread (tick t s) := by
  cases h : (s.timer t).wgm <;> simp [tick, h, tickNormal, tickCtc] <;> rfl

theorem fastTick_erase (s : State) :
    eraseUnread (fastTick (eraseUnread s)) = eraseUnread (fastTick s) :=
  congrArg Prod.snd (mgrSetval_erase { s with pwmTickCount := s.pwmTickCount + 1 } _ _)

theorem slowTick_erase (s : State) :
    eraseUnread (slowTick (eraseUnread s)) = eraseUnread (slowTick s) :=
  congrArg Prod.snd (mgrSetval_erase { s with delayTickCount := s.delayTickCount + 1 } _ _)

theorem abort_erase (s : State) : eraseUnread (abort (eraseUnread s)) = eraseUnread (abort s) := rfl

theorem clearFlag_erase (src : IrqSource) (s : State) :
    eraseUnread (clearFlag src (eraseUnread s)) = eraseUnread (clearFlag src s) := by
  cases src <;> simp [clearFlag]

@[simp] theorem irqSlot_eraseUnread (src : IrqSource) (s : State) :
    irqSlot src (eraseUnread s) = irqSlot src s := by
  cases src <;> simp [irqSlot]

@[simp] theorem irqEnabled_eraseUnread (src : IrqSource) (s : State) :
    irqEnabled src (eraseUnread s) = irqEnabled src s := by
  cases src <;> simp [irqEnabled, irqFlag, irqEnable]

@[simp] theorem tickEnabled_eraseUnread (t : TimerId) (s : State) :
    tickEnabled t (eraseUnread s) = tickEnabled t s := by
  simp [tickEnabled, running]

theorem invoke_opaque {h : Code} (hh : 4 ≤ h.toNat) (s : State) :
    invoke h s = .error .opaqueCallback := by
  rcases invoke_cases h s with ⟨rfl, -⟩ | ⟨rfl, -⟩ | ⟨rfl, -⟩ | ⟨rfl, -⟩ | ⟨-, e⟩
  · exact absurd hh (by decide)
  · exact absurd hh (by decide)
  · exact absurd hh (by decide)
  · exact absurd hh (by decide)
  · exact e

theorem dispatch_erase (src : IrqSource) (s : State) :
    eraseUnread (dispatch src (eraseUnread s)) = eraseUnread (dispatch src s) := by
  have hc := clearFlag_erase src s
  rcases dispatch_cases src s with ⟨hh, e⟩ | ⟨hh, e⟩ | ⟨hh, e⟩ | ⟨hh, e⟩ | ⟨hh, e⟩ <;>
    rw [e, dispatch, irqSlot_eraseUnread]
  · rw [hh]; exact hc
  · rw [hh]; exact eraseUnread_congr fastTick_erase hc
  · rw [hh]; exact eraseUnread_congr slowTick_erase hc
  · rw [hh]; exact eraseUnread_congr abort_erase hc
  · rw [invoke_opaque hh]; rfl

/-! ### The firmware -/

theorem goto_issue_erase {x x' : ResultCode × State} (h : eraseResult x' = eraseResult x)
    (l : Label) :
    eraseUnread (goto l (issue x')) = eraseUnread (goto l (issue x)) :=
  congrArg (goto l) (issue_erase h)

theorem microStep_erase (s : State) :
    eraseUnread (microStep (eraseUnread s)) = eraseUnread (microStep s) := by
  cases hl : s.spc <;> simp only [microStep, hl, eraseUnread_spc]
  case bFast => exact goto_issue_erase (mgrInit_erase s ..) _
  case bSlow => exact goto_issue_erase (mgrInit_erase s ..) _
  case bExti => exact goto_issue_erase (extInit_erase s ..) _
  case loop => cases h : s.runState <;> simp only [stepLoop, h, eraseUnread_runState] <;> rfl
  case sExtiDis => exact goto_issue_erase (extDisable_erase s _) _
  case sTstop => exact goto_issue_erase (mgrStop_erase s _) _
  case sPoll => cases h : s.btn <;> simp only [stepSPoll, h, eraseUnread_btn] <;> rfl
  case rExtiEn => exact goto_issue_erase (extEnable_erase s _) _
  case rTstart => exact goto_issue_erase (mgrStart_erase s _ _) _
  case rDispatch =>
    by_cases h1 : s.d ≤ Config.grace
    · simp only [stepRDispatch, eraseUnread_d, h1, if_true]; rfl
    by_cases h2 : s.d > Config.wrapAt
    · simp only [stepRDispatch, eraseUnread_d, h1, h2, if_true, if_false]; rfl
    · simp only [stepRDispatch, eraseUnread_d, h1, h2, if_false]
      cases schedule s.d <;> rfl
  case mFstart => exact goto_issue_erase (mgrStart_erase s _ _) _
  case mOncmd =>
    simp only [stepMOncmd, eraseUnread_k]
    cases onCommand s.k <;> rfl
  case mFstop => exact goto_issue_erase (mgrStop_erase s _) _
  all_goals rfl

/-! ### Events -/

theorem whenEnabled_erase {b : Bool} {s s' : State} (h : eraseUnread s' = eraseUnread s) :
    mapNext eraseUnread (whenEnabled b s') = mapNext eraseUnread (whenEnabled b s) := by
  cases b
  · rfl
  · exact congrArg Host.Outcome.next h

theorem mapNext_withPc (n : Nat) (o : Host.Outcome State Fault Refusal) :
    mapNext eraseUnread (withPc n o) = withPc n (mapNext eraseUnread o) := by
  cases o <;> rfl

theorem programStep_erase (words : List Word) (s : State) :
    mapNext eraseUnread (programStep words (eraseUnread s)) =
      mapNext eraseUnread (programStep words s) := by
  simp only [programStep, eraseUnread_pc]
  cases words[s.pc]? with
  | none => rfl
  | some w0 =>
    dsimp only
    cases decode w0 words[s.pc + 1]? with
    | error e => rfl
    | ok i =>
      cases hi : i.isEvent with
      | true => simp only [hi, if_true]; rfl
      | false =>
        simp only [hi, runCommand_eq i _ hi, mapNext_withPc, exec_command_erase i s hi,
          Bool.false_eq_true, if_false]

theorem execEvMain_erase (s : State) :
    mapNext eraseUnread (execEvMain (eraseUnread s)) = mapNext eraseUnread (execEvMain s) := by
  have hen : mainEnabled (eraseUnread s) = mainEnabled s := rfl
  simp only [execEvMain, hen, eraseUnread_mainProgram]
  split
  · cases s.mainProgram with
    | driverProgram words => exact programStep_erase words s
    | application => exact congrArg Host.Outcome.next (microStep_erase s)
  · rfl

/-- Settles O60: each command and each event runs one operation, and no operation reads the cleared
fields. -/
theorem compareOutputAndEdgeAreNeverRead : Obligations.CompareOutputAndEdgeAreNeverRead := by
  intro i s
  symm
  cases hi : i.isEvent with
  | false => exact exec_command_erase i s hi
  | true =>
    cases i
    case evTick id =>
      simp only [exec, execEvTick]
      cases timerOf id with
      | none => rfl
      | some t => simpa using whenEnabled_erase (tick_erase t s)
    case evExtrig id =>
      simp only [exec, execEvExtrig]
      cases lineOf id with
      | none => rfl
      | some l => exact whenEnabled_erase (by simp)
    case evIrq a =>
      simp only [exec, execEvIrq]
      cases sourceOf a with
      | none => rfl
      | some src => simpa using whenEnabled_erase (dispatch_erase src s)
    case evButton v => exact whenEnabled_erase rfl
    case evMain => exact execEvMain_erase s
    all_goals cases hi

end Sys2Proof.Machine
end

section
/-! SUPPORT. Words and instructions: a word matches at most one row of the opcode table, decoding is
matching a row and reading its operands, and encoding and decoding undo each other. Also the events that
are no steps. -/

namespace Sys2Proof.Machine

/-! ### The row a word matches (30_encoding.md R102) -/

theorem lookupOp_pattern (o : Op) : lookupOp (fieldU o.pattern) (fieldOP o.pattern) = .ok o := by
  cases o <;> rfl

theorem fieldU_mask (o : Op) : fieldU o.mask = 15#4 := by cases o <;> rfl

theorem fieldOP_mask (o : Op) : fieldOP o.mask = 15#4 := by cases o <;> rfl

theorem fieldZ_mask (o : Op) : fieldZ o.mask = 7#3 := by cases o <;> rfl

/-- Every mask holds the whole of U and OP, so a word that matches a row has the row's U and OP. -/
theorem lookupOp_of_match {o : Op} {w : Word} (h : w &&& o.mask = o.pattern) :
    lookupOp (fieldU w) (fieldOP w) = .ok o := by
  obtain ⟨hu, hop, -⟩ := (and_eq_iff_fields _ _ _).1 h
  rw [fieldU_mask, code_and_ones] at hu
  rw [fieldOP_mask, code_and_ones] at hop
  rw [hu, hop, lookupOp_pattern]

theorem decode_of_match {o : Op} {w0 : Word} (h : w0 &&& o.mask = o.pattern) (w1 : Option Word) :
    decode w0 w1 = decodeRow o w0 w1 := by
  simp only [decode, lookupOp_of_match h, h, if_true]

/-- Decoding is matching a row and reading the row's operands. -/
theorem decode_ok_iff {w0 : Word} {w1 : Option Word} {i : Instr} :
    decode w0 w1 = .ok i ↔ ∃ o : Op, w0 &&& o.mask = o.pattern ∧ decodeRow o w0 w1 = .ok i := by
  constructor
  · intro h
    unfold decode at h
    split at h
    · cases h
    · next o _ =>
      split at h
      · next hm => exact ⟨o, hm, h⟩
      · cases h
  · rintro ⟨o, hm, hr⟩
    rw [decode_of_match hm, hr]

/-! ### Operands with a constraint (30_encoding.md R93, R105) -/

@[simp] theorem withConfig_some (mk : Half → Half → Instr) (x : Word) :
    withConfig mk (some x) = .ok (mk (fieldCV x) (fieldIC x)) := rfl

theorem withValue_ok_iff {mk : Half → Instr} {x : Word} {i : Instr} :
    withValue mk (some x) = .ok i ↔ fieldCV x = 0#16 ∧ i = mk (fieldIC x) := by
  by_cases hx : fieldCV x = 0#16 <;> simp [withValue, extension, hx, eq_comm (a := i)]

theorem inRange_ok_iff {i j : Instr} : inRange j = .ok i ↔ j.wellFormed = true ∧ i = j := by
  cases hj : j.wellFormed <;> simp [inRange, hj, eq_comm (a := i)]

/-- EV.BUTTON's operand is the low bit of the field A (30_encoding.md R102). -/
theorem getLsbD_sixteen (w : Word) : w.getLsbD 16 = (fieldA w).getLsbD 0 := by simp [fieldA]

theorem getLsbD_zero_level (v : Bool) : (0#3 ++ BitVec.ofBool v : Code).getLsbD 0 = v := by
  cases v <;> rfl

theorem level_getLsbD_zero :
    ∀ a : Code, a &&& 14 = 0 → 0#3 ++ BitVec.ofBool (a.getLsbD 0) = a := by
  decide

/-! ### Decoding the words of an instruction -/

theorem encodingShape (i : Instr) : Laws.EncodingShape.Statement i := by
  cases i
  case tmrInit => exact Laws.EncodingShape.tmrInit ..
  case tmrSetcb => exact Laws.EncodingShape.tmrSetcb ..
  case tmrStart => exact Laws.EncodingShape.tmrStart ..
  case tmrStop => exact Laws.EncodingShape.tmrStop ..
  case tmrSetval => exact Laws.EncodingShape.tmrSetval ..
  case tmrReset => exact Laws.EncodingShape.tmrReset ..
  case tmrRdcnt => exact Laws.EncodingShape.tmrRdcnt ..
  case tmgrInit => exact Laws.EncodingShape.tmgrInit ..
  case tmgrStart => exact Laws.EncodingShape.tmgrStart ..
  case tmgrStop => exact Laws.EncodingShape.tmgrStop ..
  case tmgrSetval => exact Laws.EncodingShape.tmgrSetval ..
  case extiInit => exact Laws.EncodingShape.extiInit ..
  case extiEnable => exact Laws.EncodingShape.extiEnable ..
  case extiDisable => exact Laws.EncodingShape.extiDisable ..
  case extiSetcb => exact Laws.EncodingShape.extiSetcb ..
  case evTick => exact Laws.EncodingShape.evTick ..
  case evExtrig => exact Laws.EncodingShape.evExtrig ..
  case evIrq => exact Laws.EncodingShape.evIrq ..
  case evButton => exact Laws.EncodingShape.evButton ..
  case evMain => exact Laws.EncodingShape.evMain

/-- The words of an instruction begin with a word of its row. -/
theorem encode_eq_cons (i : Instr) :
    ∃ w ws, encode i = w :: ws ∧ w &&& i.op.mask = i.op.pattern := by
  obtain ⟨-, w, hw, hm⟩ := encodingShape i
  obtain ⟨ws, he⟩ := List.head?_eq_some_iff.1 hw
  exact ⟨w, ws, he, hm⟩

theorem decodeRow_encode {i : Instr} {w : Word} {ws : List Word} (hi : i.wellFormed = true)
    (h : encode i = w :: ws) (rest : List Word) :
    decodeRow i.op w (ws ++ rest).head? = .ok i := by
  cases i <;> cases h
  case tmrSetval | tmgrSetval => exact withValue_ok_iff.2 (by simp)
  case evTick | evExtrig | evIrq => exact inRange_ok_iff.2 (by simpa using hi)
  case evButton v =>
    simp only [Instr.op, decodeRow, getLsbD_sixteen, fieldA_packWord, getLsbD_zero_level]
  all_goals simp [Instr.op, decodeRow]

/-- Settles O1: the first word matches the instruction's row, and each operand is read back from the
field it was packed into. -/
theorem decodeOfEncodeIsTheInstruction : Obligations.DecodeOfEncodeIsTheInstruction := by
  intro i rest hi
  obtain ⟨w, ws, he, hm⟩ := encode_eq_cons i
  calc decodeWords (encode i ++ rest)
    _ = decode w (ws ++ rest).head? := by rw [he, List.cons_append, decodeWords]
    _ = decodeRow i.op w (ws ++ rest).head? := decode_of_match hm _
    _ = .ok i := decodeRow_encode hi he rest

/-! ### Encoding a decoded instruction -/

/-- Two words agree on the fields that a row's mask does not fix. Where a proof of this leaves a field
out, the mask fixes it. -/
structure AgreeOnFree (o : Op) (v w : Word) : Prop where
  id : fieldID o.mask = 15#4 ∨ fieldID v = fieldID w := by exact .inl rfl
  a : fieldA o.mask = 15#4 ∨ fieldA v = fieldA w := by exact .inl rfl
  b : fieldB o.mask = 15#4 ∨ fieldB v = fieldB w := by exact .inl rfl
  c : fieldC o.mask = 15#4 ∨ fieldC v = fieldC w := by exact .inl rfl
  h : fieldH o.mask = 15#4 ∨ fieldH v = fieldH w := by exact .inl rfl
  p : fieldP o.mask = true ∨ fieldP v = fieldP w := by exact .inl rfl

theorem code_eq_of_masked {m x y q : Code} (h : m = 15#4 ∨ x = y) (hx : x &&& m = q)
    (hy : y &&& m = q) : x = y := by
  rcases h with rfl | h
  · rw [← code_and_ones x, ← code_and_ones y, hx, hy]
  · exact h

/-- A row fixes every bit its mask holds, so two words of a row that agree on its free fields are
equal. -/
theorem eq_of_match {o : Op} {v w : Word} (hv : v &&& o.mask = o.pattern)
    (hw : w &&& o.mask = o.pattern) (free : AgreeOnFree o v w) : v = w := by
  obtain ⟨vu, vop, vid, va, vb, vc, vh, vp, vz⟩ := (and_eq_iff_fields _ _ _).1 hv
  obtain ⟨wu, wop, wid, wa, wb, wc, wh, wp, wz⟩ := (and_eq_iff_fields _ _ _).1 hw
  refine word_ext (code_eq_of_masked (.inl (fieldU_mask o)) vu wu)
    (code_eq_of_masked (.inl (fieldOP_mask o)) vop wop) (code_eq_of_masked free.id vid wid)
    (code_eq_of_masked free.a va wa) (code_eq_of_masked free.b vb wb)
    (code_eq_of_masked free.c vc wc) (code_eq_of_masked free.h vh wh) ?_ ?_
  · rcases free.p with hp | hp
    · simpa only [hp, Bool.and_true] using vp.trans wp.symm
    · exact hp
  · have hz := vz.trans wz.symm
    rw [fieldZ_mask] at hz
    exact (BitVec.and_allOnes (x := fieldZ v)).symm.trans (hz.trans BitVec.and_allOnes)

/-- EV.BUTTON fixes the upper three bits of A. -/
theorem fieldA_level {w0 : Word} (hm : w0 &&& Op.evButton.mask = Op.evButton.pattern) :
    0#3 ++ BitVec.ofBool (w0.getLsbD 16) = fieldA w0 := by
  obtain ⟨-, -, -, ha, -⟩ := (and_eq_iff_fields _ _ _).1 hm
  rw [getLsbD_sixteen]
  exact level_getLsbD_zero _ ha

theorem wellFormed_of_decodeRow {o : Op} {w0 x : Word} {i : Instr}
    (hd : decodeRow o w0 (some x) = .ok i) : i.wellFormed = true := by
  cases o
  case tmrSetval | tmgrSetval => obtain ⟨-, rfl⟩ := withValue_ok_iff.1 hd; rfl
  case evTick | evExtrig | evIrq => obtain ⟨hi, rfl⟩ := inRange_ok_iff.1 hd; exact hi
  all_goals cases hd; rfl

/-- A decoded row is encoded with the free fields of the word it was read from. -/
theorem agreeOnFree_of_decodeRow {o : Op} {w0 w x : Word} {ws : List Word} {i : Instr}
    (hm : w0 &&& o.mask = o.pattern) (hd : decodeRow o w0 (some x) = .ok i)
    (he : encode i = w :: ws) : AgreeOnFree o w w0 := by
  cases o
  case tmrInit | tmgrInit =>
    cases hd
    cases he
    exact ⟨.inr (by simp), .inr (by simp), .inr (by simp), .inr (by simp), .inr (by simp),
      .inr (by simp)⟩
  case extiInit =>
    cases hd
    cases he
    exact { id := .inr (by simp), a := .inr (by simp), h := .inr (by simp), p := .inr (by simp) }
  case tmrSetcb | extiSetcb =>
    cases hd
    cases he
    exact { id := .inr (by simp), h := .inr (by simp) }
  case tmrStart | tmgrStart =>
    cases hd
    cases he
    exact { id := .inr (by simp), a := .inr (by simp) }
  case tmrStop | tmrReset | tmrRdcnt | tmgrStop | extiEnable | extiDisable =>
    cases hd
    cases he
    exact { id := .inr (by simp) }
  case tmrSetval | tmgrSetval =>
    obtain ⟨-, rfl⟩ := withValue_ok_iff.1 hd
    cases he
    exact { id := .inr (by simp) }
  case evTick | evExtrig =>
    obtain ⟨-, rfl⟩ := inRange_ok_iff.1 hd
    cases he
    exact { id := .inr (by simp) }
  case evIrq =>
    obtain ⟨-, rfl⟩ := inRange_ok_iff.1 hd
    cases he
    exact { a := .inr (by simp) }
  case evButton =>
    cases hd
    cases he
    exact { a := .inr (by simpa using fieldA_level hm) }
  case evMain => exact {}

/-- What follows the first word: the extension word of a two-word row, whose upper half a SETVAL row
holds at 0 (30_encoding.md R105.5). -/
theorem encode_tail_of_decodeRow {o : Op} {w0 x : Word} {i : Instr}
    (hd : decodeRow o w0 (some x) = .ok i) :
    (encode i).tail = if i.length = 2 then [x] else [] := by
  cases o
  case tmrInit | tmgrInit =>
    cases hd
    exact congrArg (· :: []) (packExt_fields x)
  case tmrSetval | tmgrSetval =>
    obtain ⟨hcv, rfl⟩ := withValue_ok_iff.1 hd
    have hx : packExt 0#16 (fieldIC x) = x := by rw [← hcv, packExt_fields]
    exact congrArg (· :: []) hx
  case evTick | evExtrig | evIrq => obtain ⟨-, rfl⟩ := inRange_ok_iff.1 hd; rfl
  all_goals cases hd; rfl

/-- Settles O2: the first word of the encoding and the decoded word match one row and agree on its free
fields. -/
theorem encodeOfDecodeIsTheWords : Obligations.EncodeOfDecodeIsTheWords := by
  intro w0 x i h
  obtain ⟨o, hm, hd⟩ := decode_ok_iff.1 h
  refine ⟨wellFormed_of_decodeRow hd, ?_⟩
  obtain rfl : i.op = o := op_of_decodeRow hd
  obtain ⟨w, ws, he, hw⟩ := encode_eq_cons i
  obtain rfl : w = w0 := eq_of_match hw hm (agreeOnFree_of_decodeRow hm hd he)
  have ht := encode_tail_of_decodeRow hd
  rw [he, List.tail_cons] at ht
  rw [he, ht]
  split <;> rfl

/-! ### The rows and their constraints (30_encoding.md R105) -/

theorem fieldID_toNat (w : Word) : (fieldID w).toNat = w.toNat / 2 ^ 20 % 16 := by
  simp [fieldID, Nat.shiftRight_eq_div_pow]

theorem fieldA_toNat (w : Word) : (fieldA w).toNat = w.toNat / 2 ^ 16 % 16 := by
  simp [fieldA, Nat.shiftRight_eq_div_pow]

theorem fieldCV_eq_zero_iff (x : Word) : fieldCV x = 0#16 ↔ x.toNat / 2 ^ 16 = 0 := by
  have hcv : (fieldCV x).toNat = x.toNat / 2 ^ 16 % 2 ^ 16 := by
    simp [fieldCV, Nat.shiftRight_eq_div_pow]
  have hlt := x.isLt
  rw [← BitVec.toNat_inj, hcv, BitVec.toNat_zero]
  omega

/-- The constraint a row puts on its operands, beyond its fixed bits (30_encoding.md R105.4,
R105.5). -/
def RowConstraint (o : Op) (w0 x : Word) : Prop :=
  (o = .evTick ∨ o = .evExtrig → (w0.toNat / 2 ^ 20) % 16 ≤ 2) ∧
    (o = .evIrq → (w0.toNat / 2 ^ 16) % 16 ≤ 8) ∧
    (o = .tmrSetval ∨ o = .tmgrSetval → x.toNat / 2 ^ 16 = 0)

theorem exists_decodeRow_iff (o : Op) (w0 x : Word) :
    (∃ i, decodeRow o w0 (some x) = .ok i) ↔ RowConstraint o w0 x := by
  unfold RowConstraint
  cases o
  case evTick | evExtrig => simp [decodeRow, inRange_ok_iff, Instr.wellFormed, fieldID_toNat]
  case evIrq => simp [decodeRow, inRange_ok_iff, Instr.wellFormed, fieldA_toNat]
  case tmrSetval | tmgrSetval => simp [decodeRow, withValue_ok_iff, fieldCV_eq_zero_iff]
  all_goals simp [decodeRow]

/-- Settles O3: a word decodes when it matches a row whose operands can be read. -/
theorem decodesExactlyTheTableRows : Obligations.DecodesExactlyTheTableRows := by
  intro w0 x
  calc (∃ i, decode w0 (some x) = .ok i)
    _ ↔ ∃ o : Op, w0 &&& o.mask = o.pattern ∧ ∃ i, decodeRow o w0 (some x) = .ok i := by
      simp only [decode_ok_iff]
      rw [exists_comm]
      simp only [exists_and_left]
    _ ↔ ∃ o : Op, w0 &&& o.mask = o.pattern ∧ RowConstraint o w0 x := by
      simp only [exists_decodeRow_iff]

/-! ### Sample words -/

/-- Settles O4, word by word. -/
theorem sampleWordsDecode : Obligations.SampleWordsDecode := by
  unfold Obligations.SampleWordsDecode
  refine ⟨?_, ?_, ?_, ?_, ?_, ?_, ?_, ?_⟩ <;> decide

/-! ### Events that are no steps (60_exceptions.md R304.3) -/

theorem whenEnabled_false (s : State) : whenEnabled false s = .fault .notEnabled := rfl

theorem exec_evTick_of_stopped {t : TimerId} {s : State} (h : (s.timer t).cs = .off) :
    exec (.evTick (timerCode t)) s = .fault .notEnabled := by
  have hen : tickEnabled t s = false := by simp [tickEnabled, running, h]
  simp only [exec, execEvTick, timerOf_timerCode, hen, whenEnabled_false]

theorem exec_evIrq_of_not_pending {src : IrqSource} {s : State}
    (h : s.gie = false ∨ irqFlag src s = false ∨ irqEnable src s = false) :
    exec (.evIrq (sourceCode src)) s = .fault .notEnabled := by
  have hen : irqEnabled src s = false := by
    rcases h with h | h | h <;> simp [irqEnabled, h]
  simp only [exec, execEvIrq, sourceOf_sourceCode, hen, whenEnabled_false]

theorem exec_evMain_of_end {words : List Word} {s : State}
    (hm : s.mainProgram = .driverProgram words) (hpc : s.pc = words.length) :
    exec .evMain s = .fault .notEnabled := by
  have hen : mainEnabled s = false := by simp [mainEnabled, mainHasStep, hm, hpc]
  simp [exec_evMain_eq, execEvMain, hen]

/-- Settles O38: a stopped timer, a source that is not pending and enabled, and a program at its end
have no enabled step. -/
theorem notEnabledEventsAreNoSteps : Obligations.NotEnabledEventsAreNoSteps := by
  intro s
  exact ⟨fun t h => exec_evTick_of_stopped h, fun src h => exec_evIrq_of_not_pending h,
    fun words hm hpc => exec_evMain_of_end hm hpc⟩

end Sys2Proof.Machine
end

section
/-! SUPPORT. The Timer Peripheral Driver: each operation on operands it accepts and on operands it does
not, the commands of the driver and the manager that answer by it, and what a failed command keeps. -/

namespace Sys2Proof.Machine

/-! ### Codes in range -/

theorem timerCode_injective {t u : TimerId} (h : timerCode t = timerCode u) : t = u := by
  simpa using congrArg timerOf h

theorem modeCode_injective {m n : WaveMode} (h : modeCode m = modeCode n) : m = n := by
  simpa using congrArg modeOf h

theorem clockCode_injective {c d : Clock} (h : clockCode c = clockCode d) : c = d := by
  simpa using congrArg clockOf h

theorem timerCode_le (t : TimerId) : (timerCode t).toNat ≤ 2 := by cases t <;> decide

theorem modeCode_le (m : WaveMode) : (modeCode m).toNat ≤ 3 := by cases m <;> decide

theorem clockCode_le (c : Clock) : (clockCode c).toNat ≤ 9 := by cases c <;> decide

/-! ### The driver's operations on operands in range and out of range -/

section
variable (s : State)

theorem driverInit_accepted (t : TimerId) {m : WaveMode} {b c : Code} (cv ic : Half)
    (hs : subAccepted m b c) :
    driverInit true (timerCode t) (modeCode m) b c cv ic s =
      (.ok, s.setTimer t (configured (s.width t) m b c cv ic (s.timer t).cb)) := by
  simp [driverInit, (subValid_iff m b c).2 hs, initRegs_eq_configured]

/-- An INIT that fails any of its four checks (40_timer_driver.md R121). -/
theorem driverInit_refused {p : Bool} {id a b c : Code} (cv ic : Half)
    (h : p = false ∨ 2 < id.toNat ∨ 3 < a.toNat ∨ ∃ m, a = modeCode m ∧ ¬ subAccepted m b c) :
    driverInit p id a b c cv ic s = (.nok, s) := by
  rcases driverInit_cases p id a b c cv ic s with e | ⟨t, m, rfl, rfl, rfl, hsub, -⟩
  · exact e
  · rcases h with hp | hid | ha | ⟨n, hn, hns⟩
    · cases hp
    · exact absurd (timerCode_le t) (Nat.not_le.2 hid)
    · exact absurd (modeCode_le m) (Nat.not_le.2 ha)
    · exact absurd (modeCode_injective hn ▸ hsub) hns

/-- The null callback is refused whatever the identifier (40_timer_driver.md R124). -/
theorem driverSetcb_null (id : Code) : driverSetcb id 0 s = (.nullPtr, s) := rfl

theorem driverSetcb_timerCode (t : TimerId) {h : Code} (hh : h ≠ 0) :
    driverSetcb (timerCode t) h s = (.ok, s.setTimer t { s.timer t with cb := h }) := by
  rw [driverSetcb, if_neg (show h ≠ nullHandle from hh), timerOf_timerCode]

theorem driverSetcb_refused {id h : Code} (hh : h ≠ 0) (hid : 2 < id.toNat) :
    driverSetcb id h s = (.nok, s) := by
  rw [driverSetcb, if_neg (show h ≠ nullHandle from hh), timerOf_none id hid]

theorem driverStart_accepted {t : TimerId} {c : Clock}
    (hc : clockAccepted s.params.t2ExternalClock t c) :
    driverStart (timerCode t) (clockCode c) s =
      (.ok, { s.setTimer t { s.timer t with cs := c } with gie := true }) := by
  simp [driverStart, (clockValid_iff _ t c).2 hc]

/-- A START of no timer, with no clock, or with a clock the timer does not accept
(40_timer_driver.md R125, R126). -/
theorem driverStart_refused {id a : Code}
    (h : 2 < id.toNat ∨ 9 < a.toNat ∨ ∃ t c, id = timerCode t ∧ a = clockCode c ∧
      ¬ clockAccepted s.params.t2ExternalClock t c) :
    driverStart id a s = (.nok, s) := by
  rcases driverStart_cases id a s with e | ⟨t, c, rfl, rfl, hacc, -⟩
  · exact e
  · rcases h with hid | ha | ⟨u, d, hu, hd, hnacc⟩
    · exact absurd (timerCode_le t) (Nat.not_le.2 hid)
    · exact absurd (clockCode_le c) (Nat.not_le.2 ha)
    · exact absurd (timerCode_injective hu ▸ clockCode_injective hd ▸ hacc) hnacc

theorem driverStop_timerCode (t : TimerId) :
    driverStop (timerCode t) s = (.ok, s.setTimer t { s.timer t with cs := .off }) := by
  rw [driverStop, timerOf_timerCode]

theorem driverStop_refused {id : Code} (hid : 2 < id.toNat) : driverStop id s = (.nok, s) := by
  rw [driverStop, timerOf_none id hid]

theorem driverSetval_timerCode (t : TimerId) (v : Half) :
    driverSetval (timerCode t) v s =
      (.ok, s.setTimer t { s.timer t with cnt := truncTo (s.width t) v }) := by
  rw [driverSetval, timerOf_timerCode]

theorem driverSetval_refused {id : Code} (v : Half) (hid : 2 < id.toNat) :
    driverSetval id v s = (.nok, s) := by
  rw [driverSetval, timerOf_none id hid]

theorem driverReset_timerCode (t : TimerId) :
    driverReset (timerCode t) s = (.ok, s.setTimer t { TimerRegs.reset with cb := (s.timer t).cb }) := by
  rw [driverReset, timerOf_timerCode]

theorem driverReset_refused {id : Code} (hid : 2 < id.toNat) : driverReset id s = (.nok, s) := by
  rw [driverReset, timerOf_none id hid]

theorem driverRdcnt_timerCode (t : TimerId) :
    driverRdcnt (timerCode t) s = (.ok, { s with val := (s.timer t).cnt }) := by
  rw [driverRdcnt, timerOf_timerCode]

theorem driverRdcnt_refused {id : Code} (hid : 2 < id.toNat) : driverRdcnt id s = (.nok, s) := by
  rw [driverRdcnt, timerOf_none id hid]

/-! ### The commands that answer by the driver's operations -/

theorem exec_tmrInit (p : Bool) (id a b c h : Code) (cv ic : Half) :
    exec (.tmrInit p id a b c h cv ic) s = .next (issue (driverInit p id a b c cv ic s)) := rfl

theorem exec_tmrSetcb (id h : Code) :
    exec (.tmrSetcb id h) s = .next (issue (driverSetcb id h s)) := rfl

theorem exec_tmrStart (id a : Code) :
    exec (.tmrStart id a) s = .next (issue (driverStart id a s)) := rfl

theorem exec_tmrStop (id : Code) : exec (.tmrStop id) s = .next (issue (driverStop id s)) := rfl

theorem exec_tmrSetval (id : Code) (v : Half) :
    exec (.tmrSetval id v) s = .next (issue (driverSetval id v s)) := rfl

theorem exec_tmrReset (id : Code) : exec (.tmrReset id) s = .next (issue (driverReset id s)) := rfl

theorem exec_tmrRdcnt (id : Code) : exec (.tmrRdcnt id) s = .next (issue (driverRdcnt id s)) := rfl

/-- The manager's START answers as the driver's (42_timer_manager.md R183). -/
theorem exec_tmgrStart (id a : Code) : exec (.tmgrStart id a) s = exec (.tmrStart id a) s := by
  rw [exec_tmrStart, ← mgrStart_eq]
  rfl

/-- The manager's STOP answers as the driver's (42_timer_manager.md R184). -/
theorem exec_tmgrStop (id : Code) : exec (.tmgrStop id) s = exec (.tmrStop id) s := by
  rw [exec_tmrStop, ← mgrStop_eq]
  rfl

/-- The manager's SETVAL answers as the driver's (42_timer_manager.md R185). -/
theorem exec_tmgrSetval (id : Code) (v : Half) :
    exec (.tmgrSetval id v) s = exec (.tmrSetval id v) s := by
  rw [exec_tmrSetval, ← mgrSetval_eq]
  rfl

end

/-! ### INIT, SETCB, START, STOP, SETVAL, RESET and RDCNT -/

/-- Settles O5: the operands INIT accepts, and the four ways to fail its checks. -/
theorem tmrInitConfiguresTheTimer : Obligations.TmrInitConfiguresTheTimer := by
  constructor
  · intro s t m b c h cv ic hs
    rw [exec_tmrInit, driverInit_accepted s t cv ic hs]
    rfl
  · intro s p id a b c h cv ic hbad
    rw [exec_tmrInit, driverInit_refused s cv ic hbad]
    rfl

/-- Settles O6, by the order of SETCB's checks: the handle, then the identifier. -/
theorem tmrSetcbRegistersTheCallback : Obligations.TmrSetcbRegistersTheCallback := by
  intro s id h
  refine ⟨?_, ?_, ?_⟩
  · rintro rfl
    rw [exec_tmrSetcb, driverSetcb_null]
    rfl
  · intro hh hid
    rw [exec_tmrSetcb, driverSetcb_refused s hh hid]
    rfl
  · rintro hh t rfl
    rw [exec_tmrSetcb, driverSetcb_timerCode s t hh]
    rfl

/-- Settles O7: the manager's START answers as the driver's, which accepts exactly the clock table. -/
theorem startSelectsTheClock : Obligations.StartSelectsTheClock := by
  constructor
  · intro s t c hc
    rw [exec_tmgrStart, exec_tmrStart, driverStart_accepted s hc]
    exact ⟨rfl, rfl⟩
  · intro s id a hbad
    rw [exec_tmgrStart, exec_tmrStart, driverStart_refused s hbad]
    exact ⟨rfl, rfl⟩

/-- Settles O8: the manager's STOP answers as the driver's, which fails on the identifier only. -/
theorem stopClearsTheClockSelect : Obligations.StopClearsTheClockSelect := by
  constructor
  · intro s t
    rw [exec_tmgrStop, exec_tmrStop, driverStop_timerCode]
    exact ⟨rfl, rfl⟩
  · intro s id hid
    rw [exec_tmgrStop, exec_tmrStop, driverStop_refused s hid]
    exact ⟨rfl, rfl⟩

/-- Settles O9: the manager's SETVAL answers as the driver's, which truncates to W(t) bits. -/
theorem setvalWritesTheCount : Obligations.SetvalWritesTheCount := by
  constructor
  · intro s t v
    rw [exec_tmgrSetval, exec_tmrSetval, driverSetval_timerCode]
    exact ⟨rfl, rfl⟩
  · intro s id v hid
    rw [exec_tmgrSetval, exec_tmrSetval, driverSetval_refused s v hid]
    exact ⟨rfl, rfl⟩

/-- Settles O10: RESET writes the power-on registers around the kept callback. -/
theorem tmrResetClearsTheTimer : Obligations.TmrResetClearsTheTimer := by
  constructor
  · intro s t
    rw [exec_tmrReset, driverReset_timerCode]
    rfl
  · intro s id hid
    rw [exec_tmrReset, driverReset_refused s hid]
    rfl

/-- Settles O11: the count is held in 16 bits, so its zero extension is itself. -/
theorem tmrRdcntReadsTheCount : Obligations.TmrRdcntReadsTheCount := by
  constructor
  · intro s t
    rw [exec_tmrRdcnt, driverRdcnt_timerCode, BitVec.ofNat_toNat, BitVec.setWidth_eq]
    rfl
  · intro s id hid
    rw [exec_tmrRdcnt, driverRdcnt_refused s hid]
    rfl

/-! ### A command that fails (40_timer_driver.md R132, 60_exceptions.md R302) -/

theorem commandEffect_of_exec {i : Instr} {s s' : State} (hi : i.isEvent = false)
    (h : exec i s = .next s') : CommandEffect s s' := by
  obtain ⟨s1, h1, hc⟩ := exec_command i s hi
  obtain rfl : s1 = s' := by simpa [h1] using h
  exact hc

/-- Every effect but a failure writes OK to RES. -/
theorem CommandEffect.eq_of_res_ne_ok {s s' : State} (h : CommandEffect s s')
    (hr : s'.res ≠ .ok) : s' = { s with res := s'.res } := by
  cases h with
  | failed c hc => rfl
  | _ => exact absurd rfl hr

/-- Settles O12: a command has one of the effects, and only a failure leaves RES other than OK. -/
theorem failedCommandChangesOnlyRes : Obligations.FailedCommandChangesOnlyRes := by
  intro i s s' hi h hr
  exact (commandEffect_of_exec hi h).eq_of_res_ne_ok hr

/-! ### Two commands in a row -/

/-- Settles O13: RDCNT reads the truncated count that SETVAL wrote. -/
theorem setvalThenRdcntReadsBack : Obligations.SetvalThenRdcntReadsBack := by
  intro s t v
  refine ⟨_, _, exec_tmrSetval .., ?_, exec_tmrRdcnt .., ?_, ?_⟩
  · rw [driverSetval_timerCode, issue_res]
  · rw [driverRdcnt_timerCode, issue_res]
  · simp only [driverRdcnt_timerCode, driverSetval_timerCode, issue_val, issue_timer,
      timer_setTimer_same, truncTo_toNat]

/-- A START of a timer that returns OK wrote that timer's clock select and I, and only these. -/
theorem exec_tmrStart_ok {s s' : State} {t : TimerId} {a : Code}
    (h : exec (.tmrStart (timerCode t) a) s = .next s') (hr : s'.res = .ok) :
    ∃ c, s' = { s.setTimer t { s.timer t with cs := c } with gie := true, res := .ok } := by
  obtain rfl : issue (driverStart (timerCode t) a s) = s' := by simpa [exec_tmrStart] using h
  rcases driverStart_cases (timerCode t) a s with e | ⟨u, c, hu, -, -, e⟩
  · rw [e] at hr
    cases hr
  · obtain rfl := timerCode_injective hu
    exact ⟨c, by rw [e]; rfl⟩

/-- Settles O14: neither START nor STOP writes the count, and STOP leaves I set. -/
theorem startThenStopKeepsTheCount : Obligations.StartThenStopKeepsTheCount := by
  intro s s1 t a h hr
  obtain ⟨c, hs1⟩ := exec_tmrStart_ok h hr
  have htimer : s1.timer t = { s.timer t with cs := c } := by
    rw [hs1]
    exact timer_setTimer_same s t _
  refine ⟨_, exec_tmrStop .., ?_⟩
  rw [driverStop_timerCode, issue_timer, issue_gie, timer_setTimer_same, setTimer_gie, htimer, hs1]
  exact ⟨rfl, rfl, rfl⟩

end Sys2Proof.Machine
end

section
/-! SUPPORT. The timer counter: one clock edge on the registers of a timer in each mode, a run of
edges as that edge iterated, and the period of the overflow and of the compare match. -/

namespace Sys2Proof.Machine

/-! ### Writing a timer that was read or written before -/

@[simp] theorem setTimer_timer_self (s : State) (t : TimerId) : s.setTimer t (s.timer t) = s := by
  cases t <;> rfl

@[simp] theorem setTimer_setTimer (s : State) (t : TimerId) (r r' : TimerRegs) :
    (s.setTimer t r).setTimer t r' = s.setTimer t r' := by
  cases t <;> rfl

/-! ### One edge on the registers of a timer -/

section
variable {s : State} {t : TimerId} {r : TimerRegs}

/-- No edge clears TOV (41_timer_counter.md R167). -/
theorem tovAfter_of_set {w : Nat} {old : Half} {tov : Bool} (h : tov = true) :
    tovAfter w old tov = true := by
  rw [tovAfter, h, Bool.true_or]

/-- No edge clears OCF (41_timer_counter.md R167). -/
theorem ocfAfter_of_set {ocr old : Half} {ocf : Bool} (h : ocf = true) :
    ocfAfter ocr old ocf = true := by
  rw [ocfAfter, h, Bool.true_or]

/-- A Normal-mode edge (41_timer_counter.md R161, R162). -/
theorem tickNormal_eq (s : State) (t : TimerId) (r : TimerRegs) :
    tickNormal (s.width t) r = { r with
      cnt := if r.cnt.toNat + 1 = 2 ^ s.width t then 0 else r.cnt + 1
      tov := r.tov || decide (r.cnt.toNat + 1 = 2 ^ s.width t)
      ocf := r.ocf || decide (r.cnt = r.ocr) } := by
  simp only [tickNormal, normalCount, tovAfter, ocfAfter, eq_maxCount_iff]

/-- A CTC-mode edge (41_timer_counter.md R163, R164). -/
theorem tickCtc_eq (s : State) (t : TimerId) (r : TimerRegs) :
    tickCtc (s.width t) r = { r with
      cnt := if r.cnt = r.ocr ∨ r.cnt.toNat + 1 = 2 ^ s.width t then 0 else r.cnt + 1
      tov := r.tov || decide (r.cnt.toNat + 1 = 2 ^ s.width t)
      ocf := r.ocf || decide (r.cnt = r.ocr) } := by
  simp only [tickCtc, ctcCount, tovAfter, ocfAfter, eq_maxCount_iff]

/-- Counting up does not leave the 16 bits of a count that is below MAX. -/
theorem toNat_add_one_of_below_max {v : Half} (h : v.toNat + 1 < 2 ^ s.width t) :
    (v + 1).toNat = v.toNat + 1 := by
  have hmax := two_pow_width_le s t
  generalize 2 ^ s.width t = m at *
  bv_omega

theorem tickNormal_below_max (h : r.cnt.toNat + 1 < 2 ^ s.width t) :
    (tickNormal (s.width t) r).cnt.toNat = r.cnt.toNat + 1 ∧
      (tickNormal (s.width t) r).tov = r.tov := by
  rw [tickNormal_eq]
  simp only [h.ne, if_false, toNat_add_one_of_below_max h, decide_false, Bool.or_false, and_self]

theorem tickNormal_at_max (h : r.cnt.toNat + 1 = 2 ^ s.width t) :
    (tickNormal (s.width t) r).tov = true ∧ (tickNormal (s.width t) r).cnt = 0 := by
  rw [tickNormal_eq]
  simp [h]

/-- OCR is at most MAX, so a count below OCR is below MAX. -/
theorem tickCtc_below_ocr (h : r.cnt.toNat < r.ocr.toNat) (hocr : r.ocr.toNat < 2 ^ s.width t) :
    (tickCtc (s.width t) r).cnt.toNat = r.cnt.toNat + 1 ∧
      (tickCtc (s.width t) r).ocf = r.ocf := by
  have hmax : r.cnt.toNat + 1 < 2 ^ s.width t := Nat.lt_of_le_of_lt h hocr
  have hne : r.cnt ≠ r.ocr := fun e => h.ne (congrArg BitVec.toNat e)
  rw [tickCtc_eq]
  simp only [hne, hmax.ne, or_self, if_false, toNat_add_one_of_below_max hmax, decide_false,
    Bool.or_false, and_self]

theorem tickCtc_at_ocr (h : r.cnt = r.ocr) :
    (tickCtc (s.width t) r).ocf = true ∧ (tickCtc (s.width t) r).cnt = 0 := by
  rw [tickCtc_eq]
  simp [h]

/-! ### Edges in a row, on the registers -/

/-- Below 2^W the count goes up by one an edge, and TOV stays. -/
theorem tickNormal_iterate_below_max {n : Nat} (h : r.cnt.toNat + n < 2 ^ s.width t) :
    ((tickNormal (s.width t))^[n] r).cnt.toNat = r.cnt.toNat + n ∧
      ((tickNormal (s.width t))^[n] r).tov = r.tov := by
  induction n with
  | zero => exact ⟨rfl, rfl⟩
  | succ n ih =>
    obtain ⟨hcnt, htov⟩ := ih (by omega)
    rw [Function.iterate_succ_apply']
    obtain ⟨hcnt', htov'⟩ := tickNormal_below_max
      (show ((tickNormal (s.width t))^[n] r).cnt.toNat + 1 < 2 ^ s.width t by omega)
    exact ⟨by omega, htov'.trans htov⟩

/-- Up to OCR the count goes up by one an edge, and OCF stays, like OCR. -/
theorem tickCtc_iterate_upto_ocr {n : Nat} (h : r.cnt.toNat + n ≤ r.ocr.toNat)
    (hocr : r.ocr.toNat < 2 ^ s.width t) :
    ((tickCtc (s.width t))^[n] r).cnt.toNat = r.cnt.toNat + n ∧
      ((tickCtc (s.width t))^[n] r).ocf = r.ocf ∧ ((tickCtc (s.width t))^[n] r).ocr = r.ocr := by
  induction n with
  | zero => exact ⟨rfl, rfl, rfl⟩
  | succ n ih =>
    obtain ⟨hcnt, hocf, hkeep⟩ := ih (by omega)
    rw [Function.iterate_succ_apply']
    obtain ⟨hcnt', hocf'⟩ := tickCtc_below_ocr
      (show ((tickCtc (s.width t))^[n] r).cnt.toNat < ((tickCtc (s.width t))^[n] r).ocr.toNat by
        rw [hkeep]; omega) (by rwa [hkeep])
    exact ⟨by omega, hocf'.trans hocf, hkeep⟩

/-! ### Edges of a running timer -/

theorem exec_evTick_of_running (hr : s.refused = none) (hc : (s.timer t).cs ≠ .off) :
    exec (.evTick (timerCode t)) s = .next (tick t s) :=
  exec_evTick.2 ⟨t, rfl, hr, hc, rfl⟩

theorem tick_of_normal (h : (s.timer t).wgm = .normal) :
    tick t s = s.setTimer t (tickNormal (s.width t) (s.timer t)) := by
  rw [tick, h]

theorem tick_of_ctc (h : (s.timer t).wgm = .ctc) :
    tick t s = s.setTimer t (tickCtc (s.width t) (s.timer t)) := by
  rw [tick, h]

theorem tick_of_pwm (h : (s.timer t).wgm = .pcpwm ∨ (s.timer t).wgm = .fpwm) :
    tick t s = raise .pwmCountingNotModelled s := by
  rcases h with h | h <;> rw [tick, h]

/-- Edges in a row are the edge of the timer's mode iterated on its registers: an edge keeps the
mode and the clock select, so the next edge is one of the same kind. -/
theorem ticks_eq_iterate {m : WaveMode} {edge : Nat → TimerRegs → TimerRegs}
    (htick : ∀ s : State, (s.timer t).wgm = m →
      tick t s = s.setTimer t (edge (s.width t) (s.timer t)))
    (hcs : ∀ w r, (edge w r).cs = r.cs) (hwgm : ∀ w r, (edge w r).wgm = r.wgm) (n : Nat)
    (hr : s.refused = none) (hc : (s.timer t).cs ≠ .off) (hm : (s.timer t).wgm = m) :
    ticks (timerCode t) n s = .next (s.setTimer t ((edge (s.width t))^[n] (s.timer t))) := by
  induction n generalizing s with
  | zero => simp [ticks]
  | succ n ih =>
    simp only [ticks, exec_evTick_of_running hr hc, htick s hm]
    rw [ih (by simpa using hr) (by simpa [hcs] using hc) (by simpa [hwgm] using hm)]
    rw [timer_setTimer_same, width_setTimer, setTimer_setTimer, Function.iterate_succ_apply]

theorem ticks_of_normal (n : Nat) (hr : s.refused = none) (hc : (s.timer t).cs ≠ .off)
    (hm : (s.timer t).wgm = .normal) :
    ticks (timerCode t) n s =
      .next (s.setTimer t ((tickNormal (s.width t))^[n] (s.timer t))) :=
  ticks_eq_iterate (fun _ => tick_of_normal) (fun _ _ => rfl) (fun _ _ => rfl) n hr hc hm

theorem ticks_of_ctc (n : Nat) (hr : s.refused = none) (hc : (s.timer t).cs ≠ .off)
    (hm : (s.timer t).wgm = .ctc) :
    ticks (timerCode t) n s =
      .next (s.setTimer t ((tickCtc (s.width t))^[n] (s.timer t))) :=
  ticks_eq_iterate (fun _ => tick_of_ctc) (fun _ _ => rfl) (fun _ _ => rfl) n hr hc hm

end

/-! ### One edge -/

/-- Settles O23: a Normal-mode edge as an equation of the registers. -/
theorem normalEdgeCountsAndFlags : Obligations.NormalEdgeCountsAndFlags := by
  intro s t hr hc hm
  rw [exec_evTick_of_running hr hc, tick_of_normal hm, tickNormal_eq]

/-- Settles O24: a CTC-mode edge as an equation of the registers. -/
theorem ctcEdgeCountsAndFlags : Obligations.CtcEdgeCountsAndFlags := by
  intro s t hr hc hm
  rw [exec_evTick_of_running hr hc, tick_of_ctc hm, tickCtc_eq]

/-- Settles O25: an edge of a running timer in a PWM mode raises the refusal. -/
theorem pwmEdgeIsRefused : Obligations.PwmEdgeIsRefused := by
  intro s t hr hc hm
  rw [exec_evTick_of_running hr hc, tick_of_pwm hm, raise]

/-- Settles O26, by the mode: a counting edge writes the timer, a refused one REFUSED only. -/
theorem edgeWritesOnlyItsTimer : Obligations.EdgeWritesOnlyItsTimer := by
  intro s s' id h
  obtain ⟨t, rfl, -, hc, rfl⟩ := exec_evTick.1 h
  refine ⟨t, rfl, hc, ?_⟩
  rcases tick_cases t s with ⟨-, e⟩ | ⟨-, e⟩ | ⟨-, e⟩ <;> rw [e]
  · exact ⟨tickNormal (s.width t) (s.timer t), rfl, rfl, tovAfter_of_set, ocfAfter_of_set⟩
  · exact ⟨tickCtc (s.width t) (s.timer t), rfl, rfl, tovAfter_of_set, ocfAfter_of_set⟩
  · exact ⟨s.timer t, by rw [setTimer_timer_self]; rfl, rfl, id, id⟩

/-! ### The periods -/

/-- Settles O27: MAX - v edges count up to MAX, and one more overflows. -/
theorem overflowPeriod : Obligations.OverflowPeriod := by
  intro s t hr hc hm htov hcnt
  constructor
  · intro n hn
    obtain ⟨hcnt', htov'⟩ := tickNormal_iterate_below_max hn
    refine ⟨_, ticks_of_normal n hr hc hm, ?_⟩
    rw [timer_setTimer_same]
    exact ⟨htov'.trans htov, hcnt'⟩
  · obtain ⟨n, hn⟩ := Nat.exists_eq_add_of_lt hcnt
    obtain ⟨hcnt', -⟩ := tickNormal_iterate_below_max (r := s.timer t) (Nat.lt_of_succ_le hn.ge)
    have hedges : 2 ^ s.width t - (s.timer t).cnt.toNat = n + 1 := by omega
    refine ⟨_, ticks_of_normal _ hr hc hm, ?_⟩
    rw [timer_setTimer_same, hedges, Function.iterate_succ_apply']
    exact tickNormal_at_max (by rw [hcnt', hn])

/-- Settles O28: OCR edges count up to OCR, and one more matches. -/
theorem comparePeriod : Obligations.ComparePeriod := by
  intro s t hr hc hm hocf hcnt hocr
  have hstart : ∀ n, (s.timer t).cnt.toNat + n = n := by simp [hcnt]
  constructor
  · intro n hn
    obtain ⟨hcnt', hocf', -⟩ := tickCtc_iterate_upto_ocr ((hstart n).le.trans hn) hocr
    refine ⟨_, ticks_of_ctc n hr hc hm, ?_⟩
    rw [timer_setTimer_same]
    exact ⟨hocf'.trans hocf, hcnt'.trans (hstart n)⟩
  · obtain ⟨hcnt', -, hocr'⟩ := tickCtc_iterate_upto_ocr (hstart _).le hocr
    refine ⟨_, ticks_of_ctc _ hr hc hm, ?_⟩
    rw [timer_setTimer_same, Function.iterate_succ_apply']
    exact tickCtc_at_ocr (BitVec.eq_of_toNat_eq (by rw [hcnt', hocr', hstart]))

end Sys2Proof.Machine
end

section
/-! SUPPORT. The Timer Manager: INIT on operands it accepts and on operands it does not, and the init
commands of the boot as functions on the state that commute with each other. -/

namespace Sys2Proof.Machine

/-! ### INIT on operands in range and out of range -/

section
variable (s : State)

/-- The callback a successful TMGR.INIT leaves is the handle, unless the handle is null
(42_timer_manager.md R181). -/
theorem mgrInit_accepted (t : TimerId) {m : WaveMode} {b c : Code} (h : Code) (cv ic : Half)
    (hs : subAccepted m b c) :
    mgrInit true (timerCode t) (modeCode m) b c h cv ic s = (.ok, s.setTimer t
      (configured (s.width t) m b c cv ic (if h = 0 then (s.timer t).cb else h))) := by
  simp only [mgrInit, mgrIdOk_timerCode, driverInit_accepted s t cv ic hs, if_true, true_and]
  by_cases hh : h = 0
  · rw [if_neg (show ¬ h ≠ nullHandle from not_not_intro hh), if_pos hh]
    rfl
  · rw [if_pos (show h ≠ nullHandle from hh), if_neg hh, driverSetcb_timerCode _ t hh,
      timer_setTimer_same, setTimer_setTimer]
    rfl

theorem mgrInit_null (id a b c h : Code) (cv ic : Half) :
    mgrInit false id a b c h cv ic s = (.nullPtr, s) := rfl

/-- An INIT with a configuration fails where the driver's fails: no timer, no mode, or a sub-mode out
of range (42_timer_manager.md R181). -/
theorem mgrInit_refused {id a b c : Code} (h : Code) (cv ic : Half)
    (hbad : 2 < id.toNat ∨ 3 < a.toNat ∨ ∃ m, a = modeCode m ∧ ¬ subAccepted m b c) :
    mgrInit true id a b c h cv ic s = (.nok, s) := by
  simp only [mgrInit, driverInit_refused s cv ic (.inr hbad), if_true, reduceCtorEq, false_and,
    if_false, combine, ite_self]

theorem exec_tmgrInit (p : Bool) (id a b c h : Code) (cv ic : Half) :
    exec (.tmgrInit p id a b c h cv ic) s = .next (issue (mgrInit p id a b c h cv ic s)) := rfl

end

/-- Settles O16: the operands INIT accepts, the null configuration, and the three ways to fail. -/
theorem tmgrInitConfiguresAndRegisters : Obligations.TmgrInitConfiguresAndRegisters := by
  refine ⟨?_, ?_, ?_⟩
  · intro s t m b c h cv ic hs
    rw [exec_tmgrInit, mgrInit_accepted s t h cv ic hs]
    rfl
  · intro s id a b c h cv ic
    rw [exec_tmgrInit, mgrInit_null]
    rfl
  · intro s id a b c h cv ic hbad
    rw [exec_tmgrInit, mgrInit_refused s h cv ic hbad]
    rfl

/-! ### Commands that always answer, in any order -/

/-- The command i answers the next state f s in every state s. -/
def Computes (i : Instr) (f : State → State) : Prop := ∀ s, exec i s = .next (f s)

theorem Computes.runList_cons {i : Instr} {f : State → State} (hi : Computes i f)
    (is : List Instr) (s : State) : runList (i :: is) s = runList is (f s) := by
  rw [runList, hi]

theorem runList_nil (s : State) : runList [] s = .next s := rfl

/-- Three commands whose effects commute pairwise answer one state in all six orders. -/
theorem runList_orders {a b c : Instr} {f g k : State → State} (ha : Computes a f)
    (hb : Computes b g) (hc : Computes c k) (hfg : Function.Commute f g)
    (hfk : Function.Commute f k) (hgk : Function.Commute g k) (s : State) :
    ∃ s', runList [a, b, c] s = .next s' ∧ runList [a, c, b] s = .next s' ∧
      runList [b, a, c] s = .next s' ∧ runList [b, c, a] s = .next s' ∧
      runList [c, a, b] s = .next s' ∧ runList [c, b, a] s = .next s' := by
  simp only [ha.runList_cons, hb.runList_cons, hc.runList_cons, runList_nil]
  refine ⟨k (g (f s)), ?_⟩
  simp only [hfg.eq, hfk.eq, hgk.eq, and_self]

/-! ### The init commands of the boot -/

/-- The effect of a boot TMGR.INIT: Normal mode, compare output off, the preload pre, the callback h
(44_sequencer.md R236, R237). -/
def bootTimer (t : TimerId) (h : Code) (pre : Half) (s : State) : State :=
  issue (.ok, s.setTimer t (configured (s.width t) .normal 0 0 0 pre h))

/-- The effect of the boot EXTI.INIT (44_sequencer.md R238). -/
def bootLine (l : Line) (e : EdgeMode) (s : State) : State :=
  issue (.ok, s.setLine l { s.line l with edge := e, xcb := abortHandle })

theorem computes_bootTimer (t : TimerId) {h : Code} (hh : h ≠ 0) (pre : Half) :
    Computes (.tmgrInit true (timerCode t) (modeCode .normal) 0 0 h 0 pre) (bootTimer t h pre) := by
  intro s
  rw [exec_tmgrInit, mgrInit_accepted s t h 0 pre (by simp [subAccepted]), if_neg hh, bootTimer]

theorem extInit_accepted (s : State) {l : Line} {e : EdgeMode} {h : Code} (hh : h ≠ 0)
    (he : edgeAccepted l e) :
    extInit true (lineCode l) (edgeCode e) h s =
      (.ok, s.setLine l { s.line l with edge := e, xcb := h }) := by
  simp only [extInit, lineOf_lineCode, edgeOf_edgeCode, (edgeValid_iff l e).2 he, if_true,
    if_neg (show h ≠ nullHandle from hh)]

theorem exec_extiInit (s : State) (p : Bool) (id a h : Code) :
    exec (.extiInit p id a h) s = .next (issue (extInit p id a h s)) := rfl

theorem computes_bootLine {l : Line} {e : EdgeMode} (he : edgeAccepted l e) :
    Computes (.extiInit true (lineCode l) (edgeCode e) abortHandle) (bootLine l e) := by
  intro s
  rw [exec_extiInit, extInit_accepted s (by decide) he, bootLine]

/-- Writes of two timers do not see each other. -/
theorem setTimer_comm (s : State) {t u : TimerId} (h : u ≠ t) (r r' : TimerRegs) :
    (s.setTimer t r).setTimer u r' = (s.setTimer u r').setTimer t r :=
  congrArg (fun ts => { s with timers := ts }) (Timers.set_comm s.timers t u r r' h)

/-- The second INIT reads of the state only the width of its timer, which the first keeps. -/
theorem bootTimer_bootTimer (t u : TimerId) (g k : Code) (pre pre' : Half) (s : State) :
    bootTimer u k pre' (bootTimer t g pre s) =
      issue (.ok, (s.setTimer t (configured (s.width t) .normal 0 0 0 pre g)).setTimer u
        (configured (s.width u) .normal 0 0 0 pre' k)) := rfl

theorem bootTimer_commute {t u : TimerId} (h : t ≠ u) (g k : Code) (pre pre' : Half) :
    Function.Commute (bootTimer t g pre) (bootTimer u k pre') := by
  intro s
  rw [bootTimer_bootTimer, bootTimer_bootTimer, setTimer_comm s h]

/-- Timers and lines are different parts of the state. -/
theorem bootTimer_commute_bootLine (t : TimerId) (h : Code) (pre : Half) (l : Line)
    (e : EdgeMode) : Function.Commute (bootTimer t h pre) (bootLine l e) := fun _ => rfl

/-- Settles O17: the three effects commute pairwise. -/
theorem bootInitsCommute : Obligations.BootInitsCommute := by
  intro s f w l e pf pw hfw he
  exact runList_orders (computes_bootTimer f (by decide) pf) (computes_bootTimer w (by decide) pw)
    (computes_bootLine he) (bootTimer_commute hfw fastHandle slowHandle pf pw)
    (bootTimer_commute_bootLine f fastHandle pf l e)
    (bootTimer_commute_bootLine w slowHandle pw l e) s

end Sys2Proof.Machine
end

section
/-! SUPPORT. The External Interrupt Manager: each operation on operands it accepts and on operands it
does not, the environment's events, and an edge that is latched before its line is enabled. -/

namespace Sys2Proof.Machine

/-! ### Codes in range -/

theorem lineCode_injective {l m : Line} (h : lineCode l = lineCode m) : l = m := by
  simpa using congrArg lineOf h

theorem edgeCode_injective {e f : EdgeMode} (h : edgeCode e = edgeCode f) : e = f := by
  simpa using congrArg edgeOf h

theorem lineCode_le (l : Line) : (lineCode l).toNat ≤ 2 := by cases l <;> decide

theorem edgeCode_le (e : EdgeMode) : (edgeCode e).toNat ≤ 3 := by cases e <;> decide

section
variable (s : State)

/-! ### The operations on operands in range and out of range -/

/-- An absent configuration or callback is refused whatever the line and the edge (43_exti.md R202). -/
theorem extInit_null {p : Bool} {h : Code} (id a : Code) (hbad : p = false ∨ h = 0) :
    extInit p id a h s = (.nullPtr, s) := by
  rcases extInit_cases p id a h s with ⟨e, -⟩ | ⟨-, rfl, hh⟩ | ⟨_, _, rfl, hh, -⟩
  · exact e
  · exact absurd (hbad.resolve_left (by decide)) hh
  · exact absurd (hbad.resolve_left (by decide)) hh

/-- An INIT with a callback but no line, no edge, or an edge the line does not accept
(43_exti.md R201, R202). -/
theorem extInit_refused {id a h : Code} (hh : h ≠ 0)
    (hbad : 2 < id.toNat ∨ 3 < a.toNat ∨ ∃ l e, id = lineCode l ∧ a = edgeCode e ∧
      ¬ edgeAccepted l e) :
    extInit true id a h s = (.nok, s) := by
  rcases extInit_cases true id a h s with ⟨-, hnull⟩ | ⟨e, -⟩ | ⟨l, e, -, -, rfl, rfl, hacc, -⟩
  · exact absurd (hnull.resolve_left (by decide)) hh
  · exact e
  · rcases hbad with hid | ha | ⟨m, f, hm, hf, hnacc⟩
    · exact absurd (lineCode_le l) (Nat.not_le.2 hid)
    · exact absurd (edgeCode_le e) (Nat.not_le.2 ha)
    · exact absurd (lineCode_injective hm ▸ edgeCode_injective hf ▸ hacc) hnacc

theorem extEnable_lineCode (l : Line) :
    extEnable (lineCode l) s = (.ok, s.setLine l { s.line l with en := true }) := by
  rw [extEnable, lineOf_lineCode]

theorem extEnable_refused {id : Code} (hid : 2 < id.toNat) : extEnable id s = (.nok, s) := by
  rw [extEnable, lineOf_none id hid]

theorem extDisable_lineCode (l : Line) :
    extDisable (lineCode l) s = (.ok, s.setLine l { s.line l with en := false }) := by
  rw [extDisable, lineOf_lineCode]

theorem extDisable_refused {id : Code} (hid : 2 < id.toNat) : extDisable id s = (.nok, s) := by
  rw [extDisable, lineOf_none id hid]

/-- The null callback is refused whatever the line (43_exti.md R205). -/
theorem extSetcb_null (id : Code) : extSetcb id 0 s = (.nullPtr, s) := rfl

theorem extSetcb_lineCode (l : Line) {h : Code} (hh : h ≠ 0) :
    extSetcb (lineCode l) h s = (.ok, s.setLine l { s.line l with xcb := h }) := by
  rw [extSetcb, if_neg (show h ≠ nullHandle from hh), lineOf_lineCode]

theorem extSetcb_refused {id h : Code} (hh : h ≠ 0) (hid : 2 < id.toNat) :
    extSetcb id h s = (.nok, s) := by
  rw [extSetcb, if_neg (show h ≠ nullHandle from hh), lineOf_none id hid]

/-! ### The commands that answer by them -/

theorem exec_extiEnable (id : Code) :
    exec (.extiEnable id) s = .next (issue (extEnable id s)) := rfl

theorem exec_extiDisable (id : Code) :
    exec (.extiDisable id) s = .next (issue (extDisable id s)) := rfl

theorem exec_extiSetcb (id h : Code) :
    exec (.extiSetcb id h) s = .next (issue (extSetcb id h s)) := rfl

end

/-! ### INIT, ENABLE, DISABLE and SETCB -/

/-- Settles O18, by INIT's checks: the configuration and the callback, then the line and the edge. -/
theorem extiInitProgramsTheLine : Obligations.ExtiInitProgramsTheLine := by
  refine ⟨?_, ?_, ?_⟩
  · intro s l e h hh he
    rw [exec_extiInit, extInit_accepted s hh he]
    rfl
  · intro s p id a h hbad
    rw [exec_extiInit, extInit_null s id a hbad]
    rfl
  · intro s id a h hh hbad
    rw [exec_extiInit, extInit_refused s hh hbad]
    rfl

/-- Settles O19: ENABLE and DISABLE fail on the line only. -/
theorem extiEnableAndDisableGateTheLine : Obligations.ExtiEnableAndDisableGateTheLine := by
  constructor
  · intro s l
    rw [exec_extiEnable, exec_extiDisable, extEnable_lineCode, extDisable_lineCode]
    exact ⟨rfl, rfl⟩
  · intro s id hid
    rw [exec_extiEnable, exec_extiDisable, extEnable_refused s hid, extDisable_refused s hid]
    exact ⟨rfl, rfl⟩

/-- Settles O20, by the order of SETCB's checks: the handle, then the line. -/
theorem extiSetcbReplacesTheCallback : Obligations.ExtiSetcbReplacesTheCallback := by
  intro s id h
  refine ⟨?_, ?_, ?_⟩
  · rintro rfl
    rw [exec_extiSetcb, extSetcb_null]
    rfl
  · intro hh hid
    rw [exec_extiSetcb, extSetcb_refused s hh hid]
    rfl
  · rintro hh l rfl
    rw [exec_extiSetcb, extSetcb_lineCode s l hh]
    rfl

/-! ### The environment's events -/

theorem exec_evExtrig_lineCode {s : State} (hr : s.refused = none) (l : Line) :
    exec (.evExtrig (lineCode l)) s = .next (s.setLine l { s.line l with intf := true }) :=
  exec_evExtrig.2 ⟨l, rfl, hr, rfl⟩

/-- Settles O21: the environment's agents are enabled whenever no refusal has happened. -/
theorem environmentEvents : Obligations.EnvironmentEvents := by
  intro s hr
  exact ⟨exec_evExtrig_lineCode hr, fun v => exec_evButton.2 ⟨hr, rfl⟩⟩

/-! ### An edge latched before its line is enabled -/

@[simp] theorem setLine_setLine (s : State) (l : Line) (r r' : LineRegs) :
    (s.setLine l r).setLine l r' = s.setLine l r' := by
  cases l <;> rfl

theorem runList_cons_of_next {i : Instr} {s s' : State} (h : exec i s = .next s')
    (is : List Instr) : runList (i :: is) s = runList is s' := by
  rw [runList, h]

/-- A source whose slot holds Abort is dispatched to Abort, its flag cleared first
(60_exceptions.md R312, 44_sequencer.md R233). -/
theorem dispatch_of_abortHandle {src : IrqSource} {s : State} (h : irqSlot src s = abortHandle) :
    dispatch src s = abort (clearFlag src s) := by
  rw [dispatch, h]
  rfl

/-- A line that is pending and enabled, with I set, is dispatched (60_exceptions.md R311); where its
callback is Abort, that runs at once. -/
theorem exec_evIrq_abort {s : State} {l : Line} (hr : s.refused = none) (hg : s.gie = true)
    (hintf : (s.line l).intf = true) (hen : (s.line l).en = true)
    (hcb : (s.line l).xcb = abortHandle) :
    exec (.evIrq (sourceCode (.ext l))) s =
      .next (abort (s.setLine l { s.line l with intf := false })) :=
  (exec_evIrq_source (.ext l) s _).2
    ⟨(irqEnabled_iff (.ext l) s).2 ⟨hg, hintf, hen, hr⟩,
      (dispatch_of_abortHandle (src := .ext l) hcb).symm⟩

/-- The state after an edge on line l and then an ENABLE of it: the line is pending and enabled. -/
def latchedThenEnabled (l : Line) (s : State) : State :=
  issue (.ok, s.setLine l { s.line l with intf := true, en := true })

theorem line_latchedThenEnabled (l : Line) (s : State) :
    (latchedThenEnabled l s).line l = { s.line l with intf := true, en := true } :=
  line_setLine_same s l _

/-- ENABLE keeps the flag that the edge set (43_exti.md R203, R206). -/
theorem runList_extrig_enable {s : State} (hr : s.refused = none) (l : Line) (is : List Instr) :
    runList (.evExtrig (lineCode l) :: .extiEnable (lineCode l) :: is) s =
      runList is (latchedThenEnabled l s) := by
  rw [runList_cons_of_next (exec_evExtrig_lineCode hr l),
    runList_cons_of_next (exec_extiEnable _ _), extEnable_lineCode, line_setLine_same,
    setLine_setLine, latchedThenEnabled]

/-- Settles O22: the ENABLE leaves the line pending, enabled and with its callback, so its interrupt
is dispatched to Abort. -/
theorem latchedEdgeAbortsAfterEnable : Obligations.LatchedEdgeAbortsAfterEnable := by
  intro s l hr hg _ hcb
  have hline := line_latchedThenEnabled l s
  have hirq := exec_evIrq_abort (s := latchedThenEnabled l s) (l := l) hr hg (by rw [hline])
    (by rw [hline]) (by rw [hline, hcb])
  refine ⟨_, by rw [runList_extrig_enable hr, runList_cons_of_next hirq, runList_nil],
    rfl, rfl, rfl, ?_⟩
  rw [hline]
  exact ⟨congrArg LineRegs.intf (line_setLine_same _ l _),
    congrArg LineRegs.en (line_setLine_same _ l _)⟩

end Sys2Proof.Machine
end

section
/-! SUPPORT. The label and the locals of the firmware: only a micro-step writes them, and every
micro-step leaves what they say at the label it goes to. -/

namespace Sys2Proof.Machine

/-! ### Only a micro-step writes the label and the locals (44_sequencer.md R235) -/

/-- The label and the locals d, p and k are as before. -/
structure KeepsLocals (s s' : State) : Prop where
  spc : s'.spc = s.spc
  d : s'.d = s.d
  p : s'.p = s.p
  k : s'.k = s.k

theorem CommandEffect.keepsLocals {s s' : State} (h : CommandEffect s s') : KeepsLocals s s' :=
  ⟨h.frame.spc, h.frame.d, h.frame.p, h.frame.k⟩

theorem tick_keepsLocals (t : TimerId) (s : State) : KeepsLocals s (tick t s) := by
  obtain ⟨ts, r, e⟩ := tick_frame t s
  rw [e]
  exact ⟨rfl, rfl, rfl, rfl⟩

theorem dispatch_keepsLocals (src : IrqSource) (s : State) : KeepsLocals s (dispatch src s) := by
  obtain ⟨ts, ls, pwm, delay, rs, r, e⟩ := dispatch_frame src s
  rw [e]
  exact ⟨rfl, rfl, rfl, rfl⟩

/-- What an instruction does to the label and the locals: nothing, or a micro-step. -/
theorem exec_keepsLocals {i : Instr} {s s' : State} (h : exec i s = .next s') :
    KeepsLocals s s' ∨ s' = microStep s := by
  cases exec_effect h with
  | command _ _ _ hc => exact .inl hc.keepsLocals
  | tick t => exact .inl (tick_keepsLocals t s)
  | edge => exact .inl ⟨rfl, rfl, rfl, rfl⟩
  | dispatch src => exact .inl (dispatch_keepsLocals src s)
  | button => exact .inl ⟨rfl, rfl, rfl, rfl⟩
  | micro => exact .inr rfl
  | program _ _ _ _ _ hc =>
    obtain ⟨hspc, hd, hp, hk⟩ := hc.keepsLocals
    exact .inl ⟨hspc, hd, hp, hk⟩
  | badWord => exact .inl ⟨rfl, rfl, rfl, rfl⟩

theorem KeepsLocals.localsMatchLabel {s s' : State} (h : KeepsLocals s s')
    (hi : localsMatchLabel s) : localsMatchLabel s' := by
  unfold Machine.localsMatchLabel
  rw [h.spc, h.d, h.p, h.k]
  exact hi

/-! ### A micro-step leaves what the locals say at the next label (44_sequencer.md R250 to R263) -/

@[simp] theorem emitSome_k (o : Option OutEvent) (s : State) : (emitSome o s).k = s.k := by
  cases o <;> rfl

theorem issue_mgrStart_k (id a : Code) (s : State) : (issue (mgrStart id a s)).k = s.k :=
  (issue_mgrStart id a s).frame.k

theorem issue_mgrStop_k (id : Code) (s : State) : (issue (mgrStop id s)).k = s.k :=
  (issue_mgrStop id s).frame.k

/-- LOOP goes to a label that asks nothing of the locals. -/
theorem stepLoop_localsMatchLabel (s : State) : localsMatchLabel (stepLoop s) := by
  unfold stepLoop
  split <;> exact trivial

/-- S_POLL goes to a label that asks nothing of the locals. -/
theorem stepSPoll_localsMatchLabel (s : State) : localsMatchLabel (stepSPoll s) := by
  unfold stepSPoll
  split <;> exact trivial

/-- R_DISPATCH goes to R_WRAP with a sample above WRAP_AT, and to M_LED with the schedule's
maneuver (44_sequencer.md R251). -/
theorem stepRDispatch_localsMatchLabel (s : State) : localsMatchLabel (stepRDispatch s) := by
  unfold stepRDispatch
  split
  · exact trivial
  · split
    · next hwrap => exact hwrap
    · split
      · exact trivial
      · next k hk => exact hk

/-- M_LED opens the window exactly for a maneuver other than Stop (44_sequencer.md R254). -/
theorem stepMLed_localsMatchLabel (s : State) : localsMatchLabel (stepMLed s) := by
  unfold stepMLed
  split
  · next hk => exact hk
  · next hk => exact hk

/-- M_ON goes to the ON command with the sample that passed the ON test (44_sequencer.md R258). -/
theorem stepMOn_localsMatchLabel {s : State} (hk : s.k ≠ .stop) : localsMatchLabel (stepMOn s) := by
  unfold stepMOn
  split
  · next htest => exact ⟨hk, htest⟩
  · exact hk

/-- M_OFF goes to the stop command with the sample that passed the OFF test (44_sequencer.md
R260). -/
theorem stepMOff_localsMatchLabel {s : State} (hk : s.k ≠ .stop) :
    localsMatchLabel (stepMOff s) := by
  unfold stepMOff
  split
  · next htest => exact ⟨hk, htest⟩
  · exact hk

/-- Inside the window the maneuver stays, so it is not Stop; the other labels get their fact from
their own micro-step, or ask nothing. -/
theorem microStep_localsMatchLabel {s : State} (hi : localsMatchLabel s) :
    localsMatchLabel (microStep s) := by
  cases hl : s.spc <;> simp only [microStep, hl] <;> simp only [localsMatchLabel, hl] at hi
  case loop => exact stepLoop_localsMatchLabel s
  case sPoll => exact stepSPoll_localsMatchLabel s
  case rDispatch => exact stepRDispatch_localsMatchLabel s
  case mLed => exact stepMLed_localsMatchLabel s
  case mPzero => exact hi
  case mFstart => exact (issue_mgrStart_k _ _ s).trans_ne hi
  case mOn => exact stepMOn_localsMatchLabel hi
  case mOncmd => exact (emitSome_k _ s).trans_ne hi.1
  case mOff => exact stepMOff_localsMatchLabel hi
  case mOffcmd => exact hi.1
  case mFstop => exact (issue_mgrStop_k _ s).trans_ne hi
  all_goals exact trivial

/-- Settles O56: taking the event off the trace keeps the label and the locals, and so does every
event but a micro-step, which leaves what the label it goes to asks. -/
theorem stepKeepsLocalsMatchLabel : Obligations.StepKeepsLocalsMatchLabel := by
  intro s s' hi h
  obtain ⟨i, tr, n, -, hexec⟩ := step_next h
  have hfetched : localsMatchLabel { s with trace := tr, choices := n } := hi
  rcases exec_keepsLocals hexec with hkept | rfl
  · exact hkept.localsMatchLabel hfetched
  · exact microStep_localsMatchLabel hfetched

end Sys2Proof.Machine
end

section
/-! SUPPORT. The callbacks: what an enabled interrupt answers for each handle its slot can hold. -/

namespace Sys2Proof.Machine

/-! ### What clearing a flag leaves -/

/-- Clearing a flag writes a timer or a line and nothing else (60_exceptions.md R313, R314). -/
theorem clearFlag_frame (src : IrqSource) (s : State) :
    ∃ ts ls, clearFlag src s = { s with timers := ts, lines := ls } := by
  cases src <;> exact ⟨_, _, rfl⟩

theorem clearFlag_width (src : IrqSource) (s : State) (t : TimerId) :
    (clearFlag src s).width t = s.width t :=
  width_of_params_eq (clearFlag_params src s) t

theorem clearFlag_pwmTickCount (src : IrqSource) (s : State) :
    (clearFlag src s).pwmTickCount = s.pwmTickCount := by
  obtain ⟨ts, ls, e⟩ := clearFlag_frame src s
  rw [e]

theorem clearFlag_delayTickCount (src : IrqSource) (s : State) :
    (clearFlag src s).delayTickCount = s.delayTickCount := by
  obtain ⟨ts, ls, e⟩ := clearFlag_frame src s
  rw [e]

/-! ### The dispatch by the handle in the slot (44_sequencer.md R230) -/

section
variable {src : IrqSource} {s : State}

theorem exec_evIrq_of_enabled (he : irqEnabled src s = true) :
    exec (.evIrq (sourceCode src)) s = .next (dispatch src s) :=
  (exec_evIrq_source src s _).2 ⟨he, rfl⟩

theorem dispatch_of_nullHandle (h : irqSlot src s = nullHandle) :
    dispatch src s = clearFlag src s := by
  rw [dispatch, h]
  rfl

theorem dispatch_of_fastHandle (h : irqSlot src s = fastHandle) :
    dispatch src s = fastTick (clearFlag src s) := by
  rw [dispatch, h]
  rfl

theorem dispatch_of_slowHandle (h : irqSlot src s = slowHandle) :
    dispatch src s = slowTick (clearFlag src s) := by
  rw [dispatch, h]
  rfl

theorem dispatch_of_opaque (h : 4 ≤ (irqSlot src s).toNat) :
    dispatch src s = raise .opaqueCallback s := by
  rw [dispatch, invoke_opaque h]

/-- The handler of a source with no callback clears its flag (60_exceptions.md R313, R314). -/
theorem exec_evIrq_null (hg : s.gie = true) (hr : s.refused = none)
    (hflag : irqFlag src s = true) (hen : irqEnable src s = true)
    (hslot : irqSlot src s = nullHandle) :
    exec (.evIrq (sourceCode src)) s = .next (clearFlag src s) := by
  rw [exec_evIrq_of_enabled ((irqEnabled_iff src s).2 ⟨hg, hflag, hen, hr⟩),
    dispatch_of_nullHandle hslot]

end

/-! ### The null, the tick, the Abort and the opaque callbacks -/

/-- A tick count goes up by one modulo 256 (10_state.md R46, R47). -/
theorem byte_add_one (b : Byte) : b + 1 = BitVec.ofNat 8 ((b.toNat + 1) % 256) := by
  apply BitVec.eq_of_toNat_eq
  simp [BitVec.toNat_add]

/-- Settles O31: the parameters and the count that the callback reads are those before the flag was
cleared. -/
theorem tickCallbacksCountAndRearm : Obligations.TickCallbacksCountAndRearm := by
  intro s src he
  constructor
  · intro hslot
    rw [exec_evIrq_of_enabled he, dispatch_of_fastHandle hslot, fastTick_eq, clearFlag_params,
      clearFlag_width, clearFlag_pwmTickCount, byte_add_one]
    rfl
  · intro hslot
    rw [exec_evIrq_of_enabled he, dispatch_of_slowHandle hslot, slowTick_eq, clearFlag_params,
      clearFlag_width, clearFlag_delayTickCount, byte_add_one]
    rfl

/-- Settles O33: the refusal discards the cleared flag. -/
theorem opaqueCallbackIsRefused : Obligations.OpaqueCallbackIsRefused := by
  intro s src he hslot
  rw [exec_evIrq_of_enabled he, dispatch_of_opaque hslot]
  rfl

/-- Settles O30, for a line and for the two sources of a timer. -/
theorem nullCallbackIsAbsorbed : Obligations.NullCallbackIsAbsorbed := by
  intro s hg hr
  exact ⟨fun l hf hen hcb => exec_evIrq_null (src := .ext l) hg hr hf hen hcb,
    fun t hf hen hcb => exec_evIrq_null (src := .ovf t) hg hr hf hen hcb,
    fun t hf hen hcb => exec_evIrq_null (src := .comp t) hg hr hf hen hcb⟩

/-- Settles O32: Abort runs on the state with the flag cleared. -/
theorem abortZeroesAndStops : Obligations.AbortZeroesAndStops := by
  intro s src he hslot
  rw [exec_evIrq_of_enabled he, dispatch_of_abortHandle hslot]
  rfl

/-! ### The tick counters outside dispatch (44_sequencer.md R234) -/

/-- A micro-step keeps pwmTickCount or zeroes it. -/
theorem MicroEffect.pwmTickCount {s s' : State} (h : MicroEffect s s') :
    s'.pwmTickCount = s.pwmTickCount ∨ s'.pwmTickCount = 0 := by
  cases h with
  | command s1 l hc => exact .inl hc.frame.pwmTickCount
  | plain os l d p k pwm delay rs hp _ _ => exact hp

/-- A micro-step keeps delayTickCount, zeroes it or wraps it. -/
theorem MicroEffect.delayTickCount {s s' : State} (h : MicroEffect s s') :
    s'.delayTickCount = s.delayTickCount ∨ s'.delayTickCount = 0 ∨
      s'.delayTickCount = s.params.wrapTo := by
  cases h with
  | command s1 l hc => exact .inl hc.frame.delayTickCount
  | plain os l d p k pwm delay rs _ hd _ => exact hd

/-- Settles O53: of all effects of an instruction only a micro-step and a dispatch write the tick
counters. -/
theorem mainContextOnlyResetsTheCounters : Obligations.MainContextOnlyResetsTheCounters := by
  intro i s s' h hirq
  cases exec_effect h with
  | command _ _ _ hc => exact ⟨.inl hc.frame.pwmTickCount, .inl hc.frame.delayTickCount⟩
  | tick t =>
    obtain ⟨ts, r, e⟩ := tick_frame t s
    rw [e]
    exact ⟨.inl rfl, .inl rfl⟩
  | edge => exact ⟨.inl rfl, .inl rfl⟩
  | dispatch src => exact absurd rfl (hirq _)
  | button => exact ⟨.inl rfl, .inl rfl⟩
  | micro =>
    have heffect := microStep_effect s
    exact ⟨heffect.pwmTickCount.imp_right fun h => ⟨h, rfl⟩,
      heffect.delayTickCount.imp_right fun h => ⟨h, rfl⟩⟩
  | program _ _ _ _ _ hc => exact ⟨.inl hc.frame.pwmTickCount, .inl hc.frame.delayTickCount⟩
  | badWord => exact ⟨.inl rfl, .inl rfl⟩

end Sys2Proof.Machine
end

section
/-! SUPPORT. The firmware micro-step by micro-step: one equation for what each micro-step answers, and
EV.MAIN at a label as the micro-step of that label. -/

namespace Sys2Proof.Machine

/-- EV.MAIN at a label is the micro-step f that the firmware has there (44_sequencer.md R235). -/
theorem FirmwareAt.exec_evMain {l : Label} {s : State} (h : FirmwareAt l s) (f : State → State)
    (hf : ∀ s' : State, microStep { s' with spc := l } = f { s' with spc := l }) :
    exec .evMain s = .next (f s) := by
  obtain ⟨hr, hm, rfl⟩ := h
  rw [exec_evMain_application hr hm]
  exact congrArg _ (hf s)

/-- A micro-step that issues a command of a manager writes RES and SPC after it. -/
theorem goto_issue (l : Label) (c : ResultCode) (s : State) :
    goto l (issue (c, s)) = { s with res := c, spc := l } := rfl

/-! ### The commands the firmware issues -/

section
variable (s : State)

theorem mgrStart_accepted {t : TimerId} {c : Clock}
    (hc : clockAccepted s.params.t2ExternalClock t c) :
    mgrStart (timerCode t) (clockCode c) s =
      (.ok, { s.setTimer t { s.timer t with cs := c } with gie := true }) := by
  rw [mgrStart_eq, driverStart_accepted s hc]

/-- A START with a clock the timer does not accept (40_timer_driver.md R126). -/
theorem mgrStart_clock_refused {t : TimerId} {c : Clock}
    (hc : ¬ clockAccepted s.params.t2ExternalClock t c) :
    mgrStart (timerCode t) (clockCode c) s = (.nok, s) := by
  rw [mgrStart_eq, driverStart_refused s (.inr (.inr ⟨t, c, rfl, rfl, hc⟩))]

theorem mgrStop_timerCode (t : TimerId) :
    mgrStop (timerCode t) s = (.ok, s.setTimer t { s.timer t with cs := .off }) := by
  rw [mgrStop_eq, driverStop_timerCode]

/-- The boot's INIT of a timer always succeeds (44_sequencer.md R236, R237). -/
theorem mgrInit_boot (t : TimerId) {h : Code} (hh : h ≠ 0) (pre : Half) :
    mgrInit true (timerCode t) (modeCode .normal) 0 0 h 0 pre s =
      (.ok, s.setTimer t (configured (s.width t) .normal 0 0 0 pre h)) := by
  rw [mgrInit_accepted s t h 0 pre (by simp [subAccepted]), if_neg hh]

/-! ### Boot (44_sequencer.md R236 to R238) -/

theorem stepBFast_eq : stepBFast s =
    { s.setTimer s.params.fastTimer
        (configured (s.width s.params.fastTimer) .normal 0 0 0 s.params.preloadFast fastHandle)
      with res := .ok, spc := .bSlow } := by
  rw [stepBFast, mgrInit_boot s _ (by decide), goto_issue]

theorem stepBSlow_eq : stepBSlow s =
    { s.setTimer s.params.slowTimer
        (configured (s.width s.params.slowTimer) .normal 0 0 0 s.params.preloadSlow slowHandle)
      with res := .ok, spc := .bExti } := by
  rw [stepBSlow, mgrInit_boot s _ (by decide), goto_issue]

theorem stepBExti_accepted (he : edgeAccepted s.params.abortLine s.params.abortEdge) :
    stepBExti s =
      { s.setLine s.params.abortLine
          { s.line s.params.abortLine with edge := s.params.abortEdge, xcb := abortHandle }
        with res := .ok, spc := .loop } := by
  rw [stepBExti, extInit_accepted s (by decide) he, goto_issue]

theorem stepBExti_refused (he : ¬ edgeAccepted s.params.abortLine s.params.abortEdge) :
    stepBExti s = { s with res := .nok, spc := .loop } := by
  rw [stepBExti, extInit_refused s (by decide) (.inr (.inr ⟨_, _, rfl, rfl, he⟩)), goto_issue]

/-! ### The loop head and STOPPED (44_sequencer.md R239 to R246) -/

theorem stepLoop_eq : stepLoop s =
    { s with spc := if s.runState = .stopped then .sExtiDis else .rExtiEn } := by
  unfold stepLoop
  split
  · next h => simp only [h, if_true, goto]
  · next h => simp only [h, reduceCtorEq, if_false, goto]

theorem stepSExtiDis_eq : stepSExtiDis s =
    { s.setLine s.params.abortLine { s.line s.params.abortLine with en := false }
      with res := .ok, spc := .sTstop } := by
  rw [stepSExtiDis, extDisable_lineCode, goto_issue]

theorem stepSTstop_eq : stepSTstop s =
    { s.setTimer s.params.slowTimer { s.timer s.params.slowTimer with cs := .off }
      with res := .ok, spc := .sCarstop } := by
  rw [stepSTstop, mgrStop_timerCode, goto_issue]

theorem stepSPoll_eq : stepSPoll s =
    { s with spc := if s.btn = true then .sRun else .loop } := by
  unfold stepSPoll
  split <;> rfl

/-! ### RUNNING (44_sequencer.md R248 to R252) -/

theorem stepRExtiEn_eq : stepRExtiEn s =
    { s.setLine s.params.abortLine { s.line s.params.abortLine with en := true }
      with res := .ok, spc := .rTstart } := by
  rw [stepRExtiEn, extEnable_lineCode, goto_issue]

theorem stepRTstart_accepted
    (hc : clockAccepted s.params.t2ExternalClock s.params.slowTimer s.params.clockSlow) :
    stepRTstart s =
      { s.setTimer s.params.slowTimer { s.timer s.params.slowTimer with cs := s.params.clockSlow }
        with gie := true, res := .ok, spc := .rSample } := by
  rw [stepRTstart, mgrStart_accepted s hc, goto_issue]

theorem stepRTstart_refused
    (hc : ¬ clockAccepted s.params.t2ExternalClock s.params.slowTimer s.params.clockSlow) :
    stepRTstart s = { s with res := .nok, spc := .rSample } := by
  rw [stepRTstart, mgrStart_clock_refused s hc, goto_issue]

/-! ### The window's opening and closing (44_sequencer.md R254 to R263) -/

/-- The four writes set every indicator, so none of the old levels is left. -/
theorem emitOneHot_eq (k : Maneuver) : emitOneHot k s =
    { s with
      out := s.out ++ [.led .shortSide (k == .shortSide), .led .longSide (k == .longSide),
        .led .rotate (k == .rotate), .led .stop (k == .stop)]
      leds := { shortSide := k == .shortSide, longSide := k == .longSide,
                rotate := k == .rotate, stop := k == .stop } } := by
  simp only [emitOneHot, emit, List.append_assoc, List.cons_append, List.nil_append]
  rfl

theorem stepMFstart_accepted
    (hc : clockAccepted s.params.t2ExternalClock s.params.fastTimer s.params.clockFast) :
    stepMFstart s =
      { s.setTimer s.params.fastTimer { s.timer s.params.fastTimer with cs := s.params.clockFast }
        with gie := true, res := .ok, spc := .mOn } := by
  rw [stepMFstart, mgrStart_accepted s hc, goto_issue]

theorem stepMFstart_refused
    (hc : ¬ clockAccepted s.params.t2ExternalClock s.params.fastTimer s.params.clockFast) :
    stepMFstart s = { s with res := .nok, spc := .mOn } := by
  rw [stepMFstart, mgrStart_clock_refused s hc, goto_issue]

theorem stepMFstop_eq : stepMFstop s =
    { s.setTimer s.params.fastTimer { s.timer s.params.fastTimer with cs := .off }
      with res := .ok, spc := .mPend } := by
  rw [stepMFstop, mgrStop_timerCode, goto_issue]

end

/-! ### EV.MAIN at the labels of the boot, the loop head, STOPPED and RUNNING -/

/-- Settles O39: the commands of the boot fail on the edge of the abort line only. -/
theorem bootMicroSteps : Obligations.BootMicroSteps := by
  intro s
  refine ⟨fun h => ?_, fun h => ?_, fun h he => ?_, fun h he => ?_⟩
  · rw [h.exec_evMain stepBFast fun _ => rfl, stepBFast_eq]
  · rw [h.exec_evMain stepBSlow fun _ => rfl, stepBSlow_eq]
  · rw [h.exec_evMain stepBExti fun _ => rfl, stepBExti_accepted s he]
  · rw [h.exec_evMain stepBExti fun _ => rfl, stepBExti_refused s he]

/-- Settles O40, label by label; the micro-steps that issue no command and test nothing are their own
equations. -/
theorem stoppedMicroSteps : Obligations.StoppedMicroSteps := by
  intro s
  refine ⟨fun h => ?_, fun h => ?_, fun h => ?_, fun h => ?_, fun h => ?_, fun h => ?_, fun h => ?_,
    fun h => ?_⟩
  · rw [h.exec_evMain stepLoop fun _ => rfl, stepLoop_eq]
  · rw [h.exec_evMain stepSExtiDis fun _ => rfl, stepSExtiDis_eq]
  · rw [h.exec_evMain stepSTstop fun _ => rfl, stepSTstop_eq]
  · exact h.exec_evMain stepSCarstop fun _ => rfl
  · exact h.exec_evMain stepSLed fun _ => rfl
  · rw [h.exec_evMain stepSPoll fun _ => rfl, stepSPoll_eq]
  · exact h.exec_evMain stepSRun fun _ => rfl
  · exact h.exec_evMain stepSZero fun _ => rfl

/-- Settles O41: the command at R_TSTART fails on the slow timer's clock only. -/
theorem runningMicroSteps : Obligations.RunningMicroSteps := by
  refine ⟨rfl, fun s => ⟨fun h => ?_, fun h hc => ?_, fun h hc => ?_, fun h => ?_, fun h => ?_⟩⟩
  · rw [h.exec_evMain stepRExtiEn fun _ => rfl, stepRExtiEn_eq]
  · rw [h.exec_evMain stepRTstart fun _ => rfl, stepRTstart_accepted s hc]
  · rw [h.exec_evMain stepRTstart fun _ => rfl, stepRTstart_refused s hc]
  · exact h.exec_evMain stepRSample fun _ => rfl
  · exact h.exec_evMain stepRWrap fun _ => rfl

/-- Settles O43: the command at M_FSTART fails on the fast timer's clock only. -/
theorem maneuverMicroSteps : Obligations.ManeuverMicroSteps := by
  intro s
  refine ⟨fun h => ?_, fun h => ?_, fun h => ?_, fun h hc => ?_, fun h hc => ?_, fun h => ?_,
    fun h => ?_⟩
  · rw [h.exec_evMain stepMLed fun _ => rfl, stepMLed, emitOneHot_eq, goto]
  · exact h.exec_evMain stepMStopcmd fun _ => rfl
  · exact h.exec_evMain stepMPzero fun _ => rfl
  · rw [h.exec_evMain stepMFstart fun _ => rfl, stepMFstart_accepted s hc]
  · rw [h.exec_evMain stepMFstart fun _ => rfl, stepMFstart_refused s hc]
  · rw [h.exec_evMain stepMFstop fun _ => rfl, stepMFstop_eq]
  · exact h.exec_evMain stepMPend fun _ => rfl

end Sys2Proof.Machine
end

section
/-! SUPPORT. The schedule on the sample of R_DISPATCH, the duty loops of the window, and an Abort that
happens inside a window. -/

namespace Sys2Proof.Machine

/-! ### The schedule's intervals (44_sequencer.md R247) -/

section
variable {d : Byte}

/-- The schedule with the sample read as a number. -/
theorem schedule_eq (d : Byte) : schedule d =
    if d.toNat ≤ 2 then none
    else if d.toNat ≤ 8 then some .longSide
    else if d.toNat ≤ 9 then some .stop
    else if d.toNat ≤ 10 then some .rotate
    else if d.toNat ≤ 11 then some .stop
    else if d.toNat ≤ 15 then some .shortSide
    else if d.toNat ≤ 16 then some .stop
    else if d.toNat ≤ 17 then some .rotate
    else if d.toNat ≤ 18 then some .stop
    else none := rfl

theorem schedule_longSide (hlo : 2 < d.toNat) (hhi : d.toNat ≤ 8) : schedule d = some .longSide := by
  rw [schedule_eq, if_neg (by omega), if_pos hhi]

theorem schedule_stop (h : d.toNat = 9 ∨ d.toNat = 11 ∨ d.toNat = 16 ∨ d.toNat = 18) :
    schedule d = some .stop := by
  rcases h with h | h | h | h <;> simp [schedule_eq, h]

theorem schedule_rotate (h : d.toNat = 10 ∨ d.toNat = 17) : schedule d = some .rotate := by
  rcases h with h | h <;> simp [schedule_eq, h]

theorem schedule_shortSide (hlo : 11 < d.toNat) (hhi : d.toNat ≤ 15) :
    schedule d = some .shortSide := by
  rw [schedule_eq, if_neg (by omega), if_neg (by omega), if_neg (by omega), if_neg (by omega),
    if_neg (by omega), if_pos hhi]

/-- The schedule has a maneuver only between GRACE and WRAP_AT. -/
theorem schedule_range {k : Maneuver} (h : schedule d = some k) : 2 < d.toNat ∧ d.toNat ≤ 18 := by
  rw [schedule_eq] at h
  constructor
  · by_contra hlo
    rw [if_pos (by omega)] at h
    cases h
  · by_contra hhi
    iterate 9 rw [if_neg (by omega)] at h
    cases h

end

/-! ### R_DISPATCH (44_sequencer.md R251) -/

section
variable {s : State}

theorem stepRDispatch_grace (h : s.d.toNat ≤ 2) : stepRDispatch s = { s with spc := .loop } :=
  if_pos h

theorem stepRDispatch_wrap (h : 18 < s.d.toNat) : stepRDispatch s = { s with spc := .rWrap } := by
  have hgrace : ¬ s.d.toNat ≤ 2 := by omega
  exact (if_neg hgrace).trans (if_pos h)

theorem stepRDispatch_maneuver {k : Maneuver} (h : schedule s.d = some k) :
    stepRDispatch s = { s with k := k, spc := .mLed } := by
  obtain ⟨hgrace, hwrap⟩ := schedule_range h
  have h1 : ¬ s.d ≤ Config.grace := Nat.not_le.2 hgrace
  have h2 : ¬ s.d > Config.wrapAt := Nat.not_lt.2 hwrap
  rw [stepRDispatch, if_neg h1, if_neg h2, h]
  rfl

end

/-- Settles O42: R_DISPATCH compares the sample with GRACE and WRAP_AT, and between them goes by the
schedule. -/
theorem dispatchFollowsTheSchedule : Obligations.DispatchFollowsTheSchedule := by
  intro s h
  rw [h.exec_evMain stepRDispatch fun _ => rfl]
  refine ⟨fun hd => ?_, fun hd => ?_, fun hlo hhi => ?_, fun hd => ?_, fun hd => ?_, fun hlo hhi => ?_⟩
  · rw [stepRDispatch_grace hd]
  · rw [stepRDispatch_wrap hd]
  · rw [stepRDispatch_maneuver (schedule_longSide hlo hhi)]
  · rw [stepRDispatch_maneuver (schedule_stop hd)]
  · rw [stepRDispatch_maneuver (schedule_rotate hd)]
  · rw [stepRDispatch_maneuver (schedule_shortSide hlo hhi)]

/-! ### The duty loops (44_sequencer.md R253, R258 to R261) -/

/-- The maneuver k is ON for n of 10 fast ticks, with the command cmd that drives the motor to m. -/
structure Drives (k : Maneuver) (n : Nat) (cmd : OutEvent) (m : Motor) : Prop where
  onTest : ∀ p, onTest k p = decide (p.toNat < n)
  offTest : ∀ p, offTest k p = decide (n ≤ p.toNat ∧ p.toNat < 10)
  emit : ∀ s, emitSome (onCommand k) s = { s with out := s.out ++ [cmd], motor := m }

theorem drives_longSide : Drives .longSide 5 .carForward .forward :=
  ⟨fun _ => rfl, fun _ => (Bool.decide_and ..).symm, fun _ => rfl⟩

theorem drives_rotate : Drives .rotate 5 .carRotate .rotate :=
  ⟨fun _ => rfl, fun _ => (Bool.decide_and ..).symm, fun _ => rfl⟩

theorem drives_shortSide : Drives .shortSide 3 .carForward .forward :=
  ⟨fun _ => rfl, fun _ => (Bool.decide_and ..).symm, fun _ => rfl⟩

section
variable {s : State} {n : Nat} {cmd : OutEvent} {m : Motor}

theorem Drives.stepMOn_eq (hk : Drives s.k n cmd m) : stepMOn s =
    { s with p := s.pwmTickCount, spc := if s.pwmTickCount.toNat < n then .mOncmd else .mOff } := by
  simp only [stepMOn, hk.onTest, decide_eq_true_eq, goto]

theorem Drives.stepMOncmd_eq (hk : Drives s.k n cmd m) :
    stepMOncmd s = { s with out := s.out ++ [cmd], motor := m, spc := .mOn } := by
  rw [stepMOncmd, hk.emit, goto]

theorem Drives.stepMOff_eq (hk : Drives s.k n cmd m) : stepMOff s =
    { s with
      p := s.pwmTickCount
      spc := if n ≤ s.pwmTickCount.toNat ∧ s.pwmTickCount.toNat < 10 then .mOffcmd
        else .mFstop } := by
  simp only [stepMOff, hk.offTest, decide_eq_true_eq, goto]

end

/-- Settles O44: the three maneuvers drive by their thresholds and commands, and the four micro-steps
of the loops go by them. -/
theorem dutyLoops : Obligations.DutyLoops := by
  intro s n cmd m hcase
  have hk : Drives s.k n cmd m := by
    rcases hcase with ⟨hk, rfl, rfl, rfl⟩ | ⟨hk, rfl, rfl, rfl⟩ | ⟨hk, rfl, rfl, rfl⟩ <;> rw [hk]
    · exact drives_longSide
    · exact drives_rotate
    · exact drives_shortSide
  refine ⟨fun h => ?_, fun h => ?_, fun h => ?_, fun h => ?_⟩
  · rw [h.exec_evMain stepMOn fun _ => rfl, hk.stepMOn_eq]
  · rw [h.exec_evMain stepMOncmd fun _ => rfl, hk.stepMOncmd_eq]
  · rw [h.exec_evMain stepMOff fun _ => rfl, hk.stepMOff_eq]
  · exact h.exec_evMain stepMOffcmd fun _ => rfl

/-! ### An Abort inside a window (44_sequencer.md R267) -/

/-- Every maneuver but Stop is ON for some of the first ticks of its window. -/
theorem exists_drives {k : Maneuver} (hk : k ≠ .stop) : ∃ n cmd m, 0 < n ∧ Drives k n cmd m := by
  cases k with
  | longSide => exact ⟨_, _, _, by decide, drives_longSide⟩
  | rotate => exact ⟨_, _, _, by decide, drives_rotate⟩
  | shortSide => exact ⟨_, _, _, by decide, drives_shortSide⟩
  | stop => exact absurd rfl hk

/-- The firmware is at a label of a window, and an Abort has happened since its last step. -/
structure AbortedAt (l : Label) (s : State) : Prop where
  at_label : FirmwareAt l s
  k : s.k ≠ .stop
  pwmTickCount : s.pwmTickCount = 0
  runState : s.runState = .stopped

/-- The dispatch to Abort leaves the label, the maneuver and the program, and is not refused. -/
theorem exec_evIrq_abortedAt {src : IrqSource} {s : State} {l : Label}
    (hm : s.mainProgram = .application) (he : irqEnabled src s = true)
    (hslot : irqSlot src s = abortHandle) (hk : s.k ≠ .stop) (hl : s.spc = l) :
    ∃ s', exec (.evIrq (sourceCode src)) s = .next s' ∧ AbortedAt l s' := by
  obtain ⟨-, -, -, hr⟩ := (irqEnabled_iff src s).1 he
  refine ⟨_, exec_evIrq_of_enabled he, ?_⟩
  obtain ⟨ts, ls, e⟩ := clearFlag_frame src s
  rw [dispatch_of_abortHandle hslot, e]
  exact ⟨⟨hr, hm, hl⟩, hk, rfl, rfl⟩

section
variable {s : State}

/-- A sample of 0 passes the ON test of every maneuver but Stop. -/
theorem AbortedAt.evMain_mOn (h : AbortedAt .mOn s) : ∃ s', exec .evMain s = .next s' ∧
    s'.spc = .mOncmd ∧ s'.p = 0 ∧ s'.runState = .stopped := by
  obtain ⟨hat, hk, hpwm, hrun⟩ := h
  obtain ⟨n, cmd, m, hn, hd⟩ := exists_drives hk
  rw [hat.exec_evMain stepMOn fun _ => rfl, hd.stepMOn_eq]
  exact ⟨_, rfl, if_pos (by rw [hpwm]; exact hn), hpwm, hrun⟩

/-- A sample of 0 fails the OFF test of every maneuver. -/
theorem AbortedAt.evMain_mOff (h : AbortedAt .mOff s) : ∃ s', exec .evMain s = .next s' ∧
    s'.spc = .mFstop ∧ s'.p = 0 ∧ s'.runState = .stopped := by
  obtain ⟨hat, hk, hpwm, hrun⟩ := h
  obtain ⟨n, cmd, m, hn, hd⟩ := exists_drives hk
  rw [hat.exec_evMain stepMOff fun _ => rfl, hd.stepMOff_eq]
  exact ⟨_, rfl, if_neg (by rw [hpwm]; exact fun hoff => absurd hoff.1 (Nat.not_le.2 hn)), hpwm,
    hrun⟩

/-- The ON command goes back to the ON test and writes no counter. -/
theorem AbortedAt.evMain_mOncmd (h : AbortedAt .mOncmd s) :
    ∃ s', exec .evMain s = .next s' ∧ AbortedAt .mOn s' := by
  obtain ⟨hat, hk, hpwm, hrun⟩ := h
  obtain ⟨n, cmd, m, -, hd⟩ := exists_drives hk
  have ⟨hr, hm, _⟩ := hat
  rw [hat.exec_evMain stepMOncmd fun _ => rfl, hd.stepMOncmd_eq]
  exact ⟨_, rfl, ⟨hr, hm, rfl⟩, hk, hpwm, hrun⟩

/-- The stop command goes back to the OFF test and writes no counter. -/
theorem AbortedAt.evMain_mOffcmd (h : AbortedAt .mOffcmd s) :
    ∃ s', exec .evMain s = .next s' ∧ AbortedAt .mOff s' := by
  obtain ⟨hat, hk, hpwm, hrun⟩ := h
  have ⟨hr, hm, _⟩ := hat
  rw [hat.exec_evMain stepMOffcmd fun _ => rfl]
  exact ⟨_, rfl, ⟨hr, hm, rfl⟩, hk, hpwm, hrun⟩

end

theorem runList_singleton {i : Instr} {s s' : State} (h : exec i s = .next s') :
    runList [i] s = .next s' := by
  rw [runList_cons_of_next h, runList_nil]

/-- Settles O45: after the Abort the sample of the next test is 0, and a command of the window leads
to its test first. -/
theorem abortInsideAWindow : Obligations.AbortInsideAWindow := by
  intro s src hm he hslot hk
  refine ⟨fun hl => ?_, fun hl => ?_, fun hl => ?_, fun hl => ?_⟩
  all_goals
    obtain ⟨s1, h1, ha⟩ := exec_evIrq_abortedAt hm he hslot hk hl
    rw [runList_cons_of_next h1]
  · obtain ⟨s2, h2, hend⟩ := ha.evMain_mOn
    exact ⟨s2, runList_singleton h2, hend⟩
  · obtain ⟨s2, h2, ha2⟩ := ha.evMain_mOncmd
    obtain ⟨s3, h3, hend⟩ := ha2.evMain_mOn
    exact ⟨s3, by rw [runList_cons_of_next h2, runList_singleton h3], hend⟩
  · obtain ⟨s2, h2, hend⟩ := ha.evMain_mOff
    exact ⟨s2, runList_singleton h2, hend⟩
  · obtain ⟨s2, h2, ha2⟩ := ha.evMain_mOffcmd
    obtain ⟨s3, h3, hend⟩ := ha2.evMain_mOff
    exact ⟨s3, by rw [runList_cons_of_next h2, runList_singleton h3], hend⟩

end Sys2Proof.Machine
end

section
/-! SUPPORT. Taking an interrupt: what it leaves of the timers and the lines, and two interrupts that
share a callback in either order. -/

namespace Sys2Proof.Machine

/-! ### The dispatch condition (60_exceptions.md R311) -/

/-- A dispatch answers exactly when its source is enabled. -/
theorem exec_evIrq_answers_iff (src : IrqSource) (s : State) :
    (∃ s', exec (.evIrq (sourceCode src)) s = .next s') ↔
      s.gie = true ∧ irqFlag src s = true ∧ irqEnable src s = true ∧ s.refused = none := by
  rw [← irqEnabled_iff]
  exact ⟨fun ⟨s', h⟩ => ((exec_evIrq_source src s s').1 h).1, fun he => ⟨_, exec_evIrq_of_enabled he⟩⟩

/-- Settles O29, for a line and for the two sources of a timer. -/
theorem dispatchCondition : Obligations.DispatchCondition := fun s =>
  ⟨fun l => exec_evIrq_answers_iff (.ext l) s, fun t => exec_evIrq_answers_iff (.ovf t) s,
    fun t => exec_evIrq_answers_iff (.comp t) s⟩

/-! ### What clearing a flag and running a callback leave -/

/-- Clearing a flag changes flags only, in every timer. -/
theorem clearFlag_timer (src : IrqSource) (s : State) (u : TimerId) :
    ∃ tov ocf, (clearFlag src s).timer u = { s.timer u with tov := tov, ocf := ocf } := by
  have hset (t : TimerId) (tov ocf : Bool) : ∃ tov' ocf',
      (s.setTimer t { s.timer t with tov := tov, ocf := ocf }).timer u =
        { s.timer u with tov := tov', ocf := ocf' } :=
    forall_timer_setTimer
      (P := fun u r => ∃ tov ocf, r = { s.timer u with tov := tov, ocf := ocf })
      ⟨tov, ocf, rfl⟩ (fun u => ⟨(s.timer u).tov, (s.timer u).ocf, rfl⟩) u
  cases src with
  | ext l => exact ⟨_, _, rfl⟩
  | ovf t => exact hset t false (s.timer t).ocf
  | comp t => exact hset t (s.timer t).tov false

/-- Clearing a flag changes the flag only, in every line. -/
theorem clearFlag_line (src : IrqSource) (s : State) (m : Line) :
    ∃ intf, (clearFlag src s).line m = { s.line m with intf := intf } := by
  cases src with
  | ext l =>
    by_cases h : m = l
    · subst h
      exact ⟨false, line_setLine_same s m _⟩
    · exact ⟨_, line_setLine_other s l m _ h⟩
  | ovf t => exact ⟨_, rfl⟩
  | comp t => exact ⟨_, rfl⟩

/-- The callback of a source is not touched where a flag is cleared. -/
theorem irqSlot_clearFlag (src src' : IrqSource) (s : State) :
    irqSlot src' (clearFlag src s) = irqSlot src' s := by
  cases src' with
  | ext l =>
    obtain ⟨_, e⟩ := clearFlag_line src s l
    simp only [irqSlot, e]
  | ovf t | comp t =>
    obtain ⟨_, _, e⟩ := clearFlag_timer src s t
    simp only [irqSlot, e]

/-- What a callback leaves of what interrupts depend on: of the timers and the lines it writes counts
only (44_sequencer.md R231 to R233). -/
structure CallbackFrame (s s' : State) : Prop where
  gie : s'.gie = s.gie
  refused : s'.refused = s.refused
  lines : s'.lines = s.lines
  timer : ∀ u, ∃ v, s'.timer u = { s.timer u with cnt := v }

theorem CallbackFrame.of_timers_eq {s s' : State} (hg : s'.gie = s.gie)
    (hr : s'.refused = s.refused) (hl : s'.lines = s.lines) (ht : s'.timers = s.timers) :
    CallbackFrame s s' :=
  ⟨hg, hr, hl, fun u => ⟨_, timer_of_timers_eq ht u⟩⟩

theorem setCount_timer (s : State) (t : TimerId) (v : Half) (u : TimerId) :
    ∃ v', (s.setTimer t { s.timer t with cnt := v }).timer u = { s.timer u with cnt := v' } :=
  forall_timer_setTimer (P := fun u r => ∃ v, r = { s.timer u with cnt := v }) ⟨v, rfl⟩
    (fun u => ⟨(s.timer u).cnt, rfl⟩) u

theorem fastTick_frame (s : State) : CallbackFrame s (fastTick s) := by
  rw [fastTick_eq]
  exact ⟨rfl, rfl, rfl, setCount_timer s _ _⟩

theorem slowTick_frame (s : State) : CallbackFrame s (slowTick s) := by
  rw [slowTick_eq]
  exact ⟨rfl, rfl, rfl, setCount_timer s _ _⟩

/-- A dispatch clears the flag and runs a callback, or is refused and does neither
(60_exceptions.md R306, R312). -/
theorem dispatch_callbackFrame (src : IrqSource) (s : State) :
    CallbackFrame (clearFlag src s) (dispatch src s) ∨
      dispatch src s = raise .opaqueCallback s := by
  rcases dispatch_cases src s with ⟨-, e⟩ | ⟨-, e⟩ | ⟨-, e⟩ | ⟨-, e⟩ | ⟨-, e⟩
  · rw [e]; exact .inl (.of_timers_eq rfl rfl rfl rfl)
  · rw [e]; exact .inl (fastTick_frame _)
  · rw [e]; exact .inl (slowTick_frame _)
  · rw [e]; exact .inl (.of_timers_eq rfl rfl rfl rfl)
  · exact .inr e

theorem dispatch_timer (src : IrqSource) (s : State) (u : TimerId) :
    ∃ v tov ocf,
      (dispatch src s).timer u = { s.timer u with cnt := v, tov := tov, ocf := ocf } := by
  rcases dispatch_callbackFrame src s with hf | e
  · obtain ⟨v, hv⟩ := hf.timer u
    obtain ⟨tov, ocf, hc⟩ := clearFlag_timer src s u
    exact ⟨v, tov, ocf, by rw [hv, hc]⟩
  · exact ⟨_, _, _, by rw [e]; rfl⟩

theorem dispatch_line (src : IrqSource) (s : State) (l : Line) :
    ∃ intf, (dispatch src s).line l = { s.line l with intf := intf } := by
  rcases dispatch_callbackFrame src s with hf | e
  · obtain ⟨intf, hc⟩ := clearFlag_line src s l
    exact ⟨intf, by rw [line_of_lines_eq hf.lines, hc]⟩
  · exact ⟨_, by rw [e]; rfl⟩

/-- Settles O34: the frame of the state, then of each timer and of each line. -/
theorem dispatchFrame : Obligations.DispatchFrame := by
  intro s s' a h
  obtain ⟨src, -, -, rfl⟩ := exec_evIrq.1 h
  refine ⟨?_, fun t => ?_, fun l => ?_⟩
  · obtain ⟨ts, ls, pwm, delay, rs, r, e⟩ := dispatch_frame src s
    rw [e]
  · obtain ⟨v, tov, ocf, e⟩ := dispatch_timer src s t
    rw [e]
  · obtain ⟨intf, e⟩ := dispatch_line src s l
    rw [e]

/-! ### A callback keeps what its own and every other source depend on -/

section
variable {s s' : State}

theorem CallbackFrame.irqFlag_eq (h : CallbackFrame s s') (src : IrqSource) :
    irqFlag src s' = irqFlag src s := by
  cases src with
  | ext l => simp only [irqFlag, line_of_lines_eq h.lines]
  | ovf t | comp t =>
    obtain ⟨_, e⟩ := h.timer t
    simp only [irqFlag, e]

theorem CallbackFrame.irqEnable_eq (h : CallbackFrame s s') (src : IrqSource) :
    irqEnable src s' = irqEnable src s := by
  cases src with
  | ext l => simp only [irqEnable, line_of_lines_eq h.lines]
  | ovf t | comp t =>
    obtain ⟨_, e⟩ := h.timer t
    simp only [irqEnable, e]

theorem CallbackFrame.irqSlot_eq (h : CallbackFrame s s') (src : IrqSource) :
    irqSlot src s' = irqSlot src s := by
  cases src with
  | ext l => simp only [irqSlot, line_of_lines_eq h.lines]
  | ovf t | comp t =>
    obtain ⟨_, e⟩ := h.timer t
    simp only [irqSlot, e]

theorem CallbackFrame.irqEnabled_eq (h : CallbackFrame s s') (src : IrqSource) :
    irqEnabled src s' = irqEnabled src s := by
  simp only [irqEnabled, live, h.gie, h.refused, h.irqFlag_eq, h.irqEnable_eq]

end

/-! ### Clearing a flag commutes with a callback -/

/-- A function on the registers of timer t, as a function on the state. -/
def mapTimer (t : TimerId) (g : TimerRegs → TimerRegs) (s : State) : State :=
  s.setTimer t (g (s.timer t))

/-- Two functions on timers commute on the state, on one timer because they do on its registers, on
two timers because neither sees the other's. -/
theorem mapTimer_commute (t u : TimerId) {g k : TimerRegs → TimerRegs} (h : Function.Commute g k) :
    Function.Commute (mapTimer t g) (mapTimer u k) := by
  intro s
  by_cases htu : t = u
  · subst htu
    simp only [mapTimer, timer_setTimer_same, setTimer_setTimer, h.eq]
  · simp only [mapTimer, timer_setTimer_other _ _ _ _ htu,
      timer_setTimer_other _ _ _ _ (Ne.symm htu), setTimer_comm s htu]

/-- The two flags of a timer are cleared in either order. -/
theorem clearFlag_commute (t : TimerId) :
    Function.Commute (clearFlag (.ovf t)) (clearFlag (.comp t)) :=
  mapTimer_commute t t (g := fun r => { r with tov := false })
    (k := fun r => { r with ocf := false }) fun _ => rfl

/-- The re-arm of a tick callback writes a count, not a flag. -/
theorem rearm_commute_clearFlag (t : TimerId) (v : Half) (src : IrqSource) :
    Function.Commute (mapTimer t fun r => { r with cnt := v }) (clearFlag src) := by
  cases src with
  | ext l => exact fun _ => rfl
  | ovf u => exact mapTimer_commute t u (k := fun r => { r with tov := false }) fun _ => rfl
  | comp u => exact mapTimer_commute t u (k := fun r => { r with ocf := false }) fun _ => rfl

theorem clearFlag_setPwmTickCount (src : IrqSource) (s : State) (n : Byte) :
    clearFlag src { s with pwmTickCount := n } = { clearFlag src s with pwmTickCount := n } := by
  cases src <;> rfl

theorem clearFlag_setDelayTickCount (src : IrqSource) (s : State) (n : Byte) :
    clearFlag src { s with delayTickCount := n } = { clearFlag src s with delayTickCount := n } := by
  cases src <;> rfl

theorem fastTick_commute_clearFlag (src : IrqSource) :
    Function.Commute fastTick (clearFlag src) := by
  intro s
  have hrearm := rearm_commute_clearFlag s.params.fastTimer
    (truncTo (s.width s.params.fastTimer) s.params.preloadFast) src s
  simp only [mapTimer] at hrearm
  rw [fastTick_eq s, fastTick_eq (clearFlag src s), clearFlag_params, clearFlag_width,
    clearFlag_pwmTickCount, hrearm]
  exact (clearFlag_setPwmTickCount src _ _).symm

theorem slowTick_commute_clearFlag (src : IrqSource) :
    Function.Commute slowTick (clearFlag src) := by
  intro s
  have hrearm := rearm_commute_clearFlag s.params.slowTimer
    (truncTo (s.width s.params.slowTimer) s.params.preloadSlow) src s
  simp only [mapTimer] at hrearm
  rw [slowTick_eq s, slowTick_eq (clearFlag src s), clearFlag_params, clearFlag_width,
    clearFlag_delayTickCount, hrearm]
  exact (clearFlag_setDelayTickCount src _ _).symm

theorem abort_commute_clearFlag (src : IrqSource) : Function.Commute abort (clearFlag src) := by
  intro s
  cases src <;> rfl

/-! ### Two interrupts with one callback (60_exceptions.md R315) -/

/-- The handle h is answered by the function f, whatever flags are set. -/
structure Callback (h : Code) (f : State → State) : Prop where
  invoke : ∀ s, invoke h s = .ok (f s)
  frame : ∀ s, CallbackFrame s (f s)
  commute : ∀ src, Function.Commute f (clearFlag src)

/-- Every handle below 4 is answered (44_sequencer.md R230). -/
theorem exists_callback {h : Code} (hh : h.toNat < 4) : ∃ f, Callback h f := by
  have hcases : ∀ h : Code, h.toNat < 4 →
      h = nullHandle ∨ h = fastHandle ∨ h = slowHandle ∨ h = abortHandle := by decide
  rcases hcases h hh with rfl | rfl | rfl | rfl
  · exact ⟨id, fun _ => rfl, fun _ => .of_timers_eq rfl rfl rfl rfl, fun _ => .id_left⟩
  · exact ⟨fastTick, fun _ => rfl, fastTick_frame, fastTick_commute_clearFlag⟩
  · exact ⟨slowTick, fun _ => rfl, slowTick_frame, slowTick_commute_clearFlag⟩
  · exact ⟨abort, fun _ => rfl, fun _ => .of_timers_eq rfl rfl rfl rfl, abort_commute_clearFlag⟩

section
variable {h : Code} {f : State → State} {a b : IrqSource} {s : State}

theorem Callback.dispatch (hf : Callback h f) (hslot : irqSlot a s = h) :
    dispatch a s = f (clearFlag a s) := by
  rw [Machine.dispatch, hslot, hf.invoke]

/-- Two dispatches with one callback clear both flags and run the callback twice. -/
theorem Callback.runList_dispatch_dispatch (hf : Callback h f) (ha : irqEnabled a s = true)
    (hb : irqEnabled b (clearFlag a s) = true) (hsa : irqSlot a s = h) (hsb : irqSlot b s = h) :
    runList [.evIrq (sourceCode a), .evIrq (sourceCode b)] s =
      .next (f (f (clearFlag b (clearFlag a s)))) := by
  have hframe := hf.frame (clearFlag a s)
  have hb' : irqEnabled b (f (clearFlag a s)) = true := (hframe.irqEnabled_eq b).trans hb
  have hsb' : irqSlot b (f (clearFlag a s)) = h :=
    (hframe.irqSlot_eq b).trans ((irqSlot_clearFlag a b s).trans hsb)
  rw [runList_cons_of_next (exec_evIrq_of_enabled ha), hf.dispatch hsa,
    runList_singleton (exec_evIrq_of_enabled hb'), hf.dispatch hsb',
    ← (hf.commute b).eq]

end

/-- Clearing one flag of a timer keeps its other source enabled. -/
theorem irqEnabled_comp_clearFlag_ovf (t : TimerId) (s : State) :
    irqEnabled (.comp t) (clearFlag (.ovf t) s) = irqEnabled (.comp t) s := by
  simp [irqEnabled, irqFlag, irqEnable, clearFlag, live]

theorem irqEnabled_ovf_clearFlag_comp (t : TimerId) (s : State) :
    irqEnabled (.ovf t) (clearFlag (.comp t) s) = irqEnabled (.ovf t) s := by
  simp [irqEnabled, irqFlag, irqEnable, clearFlag, live]

/-- Settles O35: in both orders the two flags are cleared and the one callback runs twice. -/
theorem bothFlagsDispatchInEitherOrder : Obligations.BothFlagsDispatchInEitherOrder := by
  intro s t hg hr hcb htov htoie hocf hocie
  obtain ⟨f, hf⟩ := exists_callback hcb
  have ho : irqEnabled (.ovf t) s = true := (irqEnabled_iff _ s).2 ⟨hg, htov, htoie, hr⟩
  have hc : irqEnabled (.comp t) s = true := (irqEnabled_iff _ s).2 ⟨hg, hocf, hocie, hr⟩
  have hkept (src : IrqSource) (s : State) : irqFlag src (f (f s)) = irqFlag src s :=
    ((hf.frame (f s)).irqFlag_eq src).trans ((hf.frame s).irqFlag_eq src)
  refine ⟨f (f (clearFlag (.comp t) (clearFlag (.ovf t) s))), ?_, ?_, ?_, ?_⟩
  · exact hf.runList_dispatch_dispatch ho ((irqEnabled_comp_clearFlag_ovf t s).trans hc) rfl rfl
  · rw [← (clearFlag_commute t).eq]
    exact hf.runList_dispatch_dispatch hc ((irqEnabled_ovf_clearFlag_comp t s).trans ho) rfl rfl
  · exact (hkept (.ovf t) _).trans (by simp [irqFlag, clearFlag])
  · exact (hkept (.comp t) _).trans (by simp [irqFlag, clearFlag])

end Sys2Proof.Machine
end

section
/-! SUPPORT. Refusals: what EV.MAIN refuses, what a refusal changes, and that no step follows one. -/

namespace Sys2Proof.Machine

/-! ### The words EV.MAIN refuses (60_exceptions.md R306) -/

/-- EV.MAIN at a word of a driver program is a step of that program. -/
theorem exec_evMain_at_word {words : List Word} {w0 : Word} {s : State} (hr : s.refused = none)
    (hm : s.mainProgram = .driverProgram words) (hw : words[s.pc]? = some w0) :
    exec .evMain s = programStep words s := by
  have hlt : s.pc < words.length := (List.getElem?_eq_some_iff.1 hw).1
  have hen : mainEnabled s = true := by simp [mainEnabled, mainHasStep, live, hr, hm, hlt]
  simp only [exec_evMain_eq, execEvMain, if_pos hen, hm]

theorem programStep_invalid {words : List Word} {w0 : Word} {e : DecodeError} {s : State}
    (hw : words[s.pc]? = some w0) (hd : decode w0 words[s.pc + 1]? = .error e) :
    programStep words s = .next (raise (invalidReason e) s) := by
  simp only [programStep, hw, hd]

theorem programStep_event {words : List Word} {w0 : Word} {i : Instr} {s : State}
    (hw : words[s.pc]? = some w0) (hd : decode w0 words[s.pc + 1]? = .ok i)
    (hi : i.isEvent = true) : programStep words s = .next (raise .eventInProgram s) := by
  simp only [programStep, hw, hd, hi, if_true]

/-- A missing second word has a reason of its own; every other Invalid word has one reason. -/
theorem invalidReason_of_ne_truncatedCommand {e : DecodeError} (h : e ≠ .truncatedCommand) :
    invalidReason e = .invalidEncoding := by
  cases e with
  | truncatedCommand => exact absurd rfl h
  | _ => rfl

/-- Settles O37, by the decoder's answer for the word at PC. -/
theorem mainRefusesBadWords : Obligations.MainRefusesBadWords := by
  intro s words w0 hr hm hw
  rw [exec_evMain_at_word hr hm hw]
  refine ⟨fun e hd he => ?_, fun hd => ?_, fun i hd hi => ?_⟩
  · rw [programStep_invalid hw hd, invalidReason_of_ne_truncatedCommand he, raise]
  · rw [programStep_invalid hw hd, invalidReason, raise]
  · rw [programStep_event hw hd hi, raise]

/-! ### A refusal changes REFUSED only (60_exceptions.md R306) -/

theorem clearFlag_refused (src : IrqSource) (s : State) :
    (clearFlag src s).refused = s.refused := by
  obtain ⟨ts, ls, e⟩ := clearFlag_frame src s
  rw [e]

theorem MicroEffect.refused {s s' : State} (h : MicroEffect s s') : s'.refused = s.refused := by
  cases h with
  | command s1 l hc => exact hc.frame.refused
  | plain os =>
    obtain ⟨m, ls, e⟩ := emitAll_eq os s
    rw [e]

/-- An instruction keeps REFUSED, or is a refusal and nothing else. -/
theorem exec_refused {i : Instr} {s s' : State} (h : exec i s = .next s') :
    s'.refused = s.refused ∨ ∃ r, s' = raise r s := by
  cases exec_effect h with
  | command _ _ _ hc => exact .inl hc.frame.refused
  | tick t =>
    rcases tick_cases t s with ⟨-, e⟩ | ⟨-, e⟩ | ⟨-, e⟩ <;> rw [e]
    · exact .inl rfl
    · exact .inl rfl
    · exact .inr ⟨_, rfl⟩
  | edge => exact .inl rfl
  | dispatch src =>
    exact (dispatch_callbackFrame src s).imp
      (fun hf => hf.refused.trans (clearFlag_refused src s)) fun e => ⟨_, e⟩
  | button => exact .inl rfl
  | micro => exact .inl (microStep_effect s).refused
  | program _ _ _ _ _ hc => exact .inl hc.frame.refused
  | badWord _ r => exact .inr ⟨r, rfl⟩

/-! ### After a refusal (10_state.md R54) -/

section
variable {s : State}

theorem live_of_refused (h : s.refused ≠ none) : live s = false :=
  Bool.eq_false_iff.2 fun hl => h ((live_iff s).1 hl)

/-- After a refusal no agent has an enabled step. -/
theorem exec_event_of_refused (h : s.refused ≠ none) {i : Instr} (hi : i.isEvent = true) :
    exec i s = .fault .notEnabled := by
  have hl : live s = false := live_of_refused h
  cases i
  case evTick id =>
    have hen (t : TimerId) : tickEnabled t s = false := by rw [tickEnabled, hl, Bool.false_and]
    simp only [exec, execEvTick, hen, whenEnabled_false]
    split <;> rfl
  case evExtrig id =>
    simp only [exec, execEvExtrig, hl, whenEnabled_false]
    split <;> rfl
  case evIrq a =>
    have hen (src : IrqSource) : irqEnabled src s = false := by
      rw [irqEnabled, hl, Bool.and_false]
    simp only [exec, execEvIrq, hen, whenEnabled_false]
    split <;> rfl
  case evButton v => simp only [exec, execEvButton, hl, whenEnabled_false]
  case evMain =>
    have hen : mainEnabled s = false := by rw [mainEnabled, hl, Bool.false_and]
    simp [exec_evMain_eq, execEvMain, hen]
  all_goals cases hi

end

/-- Settles O49: a step that sets REFUSED is a bare refusal, and after it the event that a step takes
has no enabled agent. -/
theorem refusalIsFinal : Obligations.RefusalIsFinal := by
  refine ⟨fun i s s' h hnone hset => ?_, fun s hs => ⟨fun i hi => exec_event_of_refused hs hi, ?_⟩⟩
  · rcases exec_refused h with hkept | ⟨r, rfl⟩
    · exact absurd (hkept.trans hnone) hset
    · rfl
  · intro s' h
    obtain ⟨i, tr, n, hi, hx⟩ := step_next h
    rw [exec_event_of_refused (s := { s with trace := tr, choices := n }) hs hi] at hx
    cases hx

end Sys2Proof.Machine
end

section
/-! SUPPORT. The lifecycle read off the registers, and what INIT, START, STOP and RESET leave in the
registers of their timer. -/

namespace Sys2Proof.Machine

/-! ### The lifecycle from the registers (10_state.md R43) -/

section
variable {t : TimerId} {s : State}

theorem lifecycle_of_running (hcs : (s.timer t).cs ≠ .off) : lifecycle t s = .running := by
  simp [lifecycle, running, hcs]

theorem lifecycle_of_stopped (hcs : (s.timer t).cs = .off) :
    lifecycle t s = if (s.timer t).wgm = .normal ∧ (s.timer t).toie = false then .unconfigured
      else .configuredStopped := by
  simp [lifecycle, running, hcs]

/-- INIT enables the overflow interrupt of a timer it leaves in Normal mode, which tells the timer from
a reset one (log entry 18). -/
theorem lifecycle_of_initialised (hcs : (s.timer t).cs = .off)
    (htoie : (s.timer t).toie = decide ((s.timer t).wgm = .normal)) :
    lifecycle t s = .configuredStopped := by
  rw [lifecycle_of_stopped hcs, htoie]
  exact if_neg fun ⟨hwgm, htoie⟩ => of_decide_eq_false htoie hwgm

theorem lifecycle_of_reset (hcs : (s.timer t).cs = .off) (hwgm : (s.timer t).wgm = .normal)
    (htoie : (s.timer t).toie = false) : lifecycle t s = .unconfigured := by
  rw [lifecycle_of_stopped hcs]
  exact if_pos ⟨hwgm, htoie⟩

end

/-! ### The registers of the timer a command names -/

section
variable (s : State) (t : TimerId)

theorem exec_tmrInit_timer {m : WaveMode} {b c : Code} (h : Code) (cv ic : Half)
    (hs : subAccepted m b c) :
    ∃ s', exec (.tmrInit true (timerCode t) (modeCode m) b c h cv ic) s = .next s' ∧
      s'.params = s.params ∧
      s'.timer t = configured (s.width t) m b c cv ic (s.timer t).cb :=
  ⟨_, tmrInitConfiguresTheTimer.1 s t m b c h cv ic hs, rfl, timer_setTimer_same s t _⟩

theorem exec_tmrStart_timer {c : Clock} (hc : clockAccepted s.params.t2ExternalClock t c) :
    ∃ s', exec (.tmrStart (timerCode t) (clockCode c)) s = .next s' ∧
      s'.timer t = { s.timer t with cs := c } :=
  ⟨_, (startSelectsTheClock.1 s t c hc).1, timer_setTimer_same s t _⟩

theorem exec_tmrStop_timer :
    ∃ s', exec (.tmrStop (timerCode t)) s = .next s' ∧
      s'.timer t = { s.timer t with cs := .off } :=
  ⟨_, (stopClearsTheClockSelect.1 s t).1, timer_setTimer_same s t _⟩

theorem exec_tmrReset_timer :
    ∃ s', exec (.tmrReset (timerCode t)) s = .next s' ∧
      s'.timer t = { TimerRegs.reset with cb := (s.timer t).cb } :=
  ⟨_, tmrResetClearsTheTimer.1 s t, timer_setTimer_same s t _⟩

end

/-- Settles O15: the registers of the timer after each of the four commands; START and STOP keep the
mode and the overflow enable that INIT wrote. -/
theorem lifecycleFollowsTheCommands : Obligations.LifecycleFollowsTheCommands := by
  intro s t m b c h cv ic k hs hk hoff
  obtain ⟨s1, e1, hp, h1⟩ := exec_tmrInit_timer s t h cv ic hs
  obtain ⟨s2, e2, h2⟩ := exec_tmrStart_timer s1 t (hp ▸ hk)
  obtain ⟨s3, e3, h3⟩ := exec_tmrStop_timer s2 t
  obtain ⟨s4, e4, h4⟩ := exec_tmrReset_timer s3 t
  refine ⟨s1, s2, s3, s4, e1, ?_, e2, ?_, e3, ?_, e4, ?_⟩
  · exact lifecycle_of_initialised (by rw [h1]; rfl) (by rw [h1]; rfl)
  · exact lifecycle_of_running (by rw [h2]; exact hoff)
  · exact lifecycle_of_initialised (by rw [h3]) (by rw [h3, h2, h1]; rfl)
  · exact lifecycle_of_reset (by rw [h4]; rfl) (by rw [h4]; rfl) (by rw [h4]; rfl)

end Sys2Proof.Machine
end

section
/-! SUPPORT. The free choice of the next event: an enabled event always answers a next state, and a
machine that is not refused always has one. -/

namespace Sys2Proof.Machine

/-! ### An enabled event answers (30_encoding.md R103, R104) -/

/-- A driver program at one of its words answers: it refuses the word or runs its command. -/
theorem exists_next_evMain_at_word {words : List Word} {w0 : Word} {s : State}
    (hr : s.refused = none) (hm : s.mainProgram = .driverProgram words)
    (hw : words[s.pc]? = some w0) : ∃ s', exec .evMain s = .next s' := by
  cases hd : decode w0 words[s.pc + 1]? with
  | error e => exact ⟨_, (exec_evMain_at_word hr hm hw).trans (programStep_invalid hw hd)⟩
  | ok i =>
    cases hi : i.isEvent with
    | true => exact ⟨_, (exec_evMain_at_word hr hm hw).trans (programStep_event hw hd hi)⟩
    | false =>
      obtain ⟨s', -, he⟩ := exec_evMain_command_next ⟨hr, hi, words, w0, hm, hw, hd⟩
      exact ⟨_, he⟩

theorem exists_next_evMain {s : State} (h : mainEnabled s = true) :
    ∃ s', exec .evMain s = .next s' := by
  obtain ⟨hl, hstep⟩ := Bool.and_eq_true_iff.1 h
  have hr : s.refused = none := (live_iff s).1 hl
  cases hm : s.mainProgram with
  | application => exact ⟨_, exec_evMain_application hr hm⟩
  | driverProgram words =>
    have hpc : s.pc < words.length := by simpa [mainHasStep, hm] using hstep
    exact exists_next_evMain_at_word hr hm (List.getElem?_eq_getElem hpc)

theorem exists_next_of_eventEnabled {i : Instr} {s : State} (h : eventEnabled i s = true) :
    ∃ s', exec i s = .next s' := by
  cases i
  case evTick id =>
    obtain ⟨t, ht, he⟩ := (Option.any_eq_true _ _).1 h
    obtain ⟨hr, hc⟩ := (tickEnabled_iff t s).1 he
    exact ⟨_, exec_evTick.2 ⟨t, timerCode_of_timerOf ht, hr, hc, rfl⟩⟩
  case evExtrig id =>
    obtain ⟨l, hl, he⟩ := (Option.any_eq_true _ _).1 h
    exact ⟨_, exec_evExtrig.2 ⟨l, lineCode_of_lineOf hl, (live_iff s).1 he, rfl⟩⟩
  case evIrq a =>
    obtain ⟨src, hs, he⟩ := (Option.any_eq_true _ _).1 h
    exact ⟨_, exec_evIrq.2 ⟨src, sourceCode_of_sourceOf hs, he, rfl⟩⟩
  case evButton v => exact ⟨_, exec_evButton.2 ⟨(live_iff s).1 h, rfl⟩⟩
  case evMain => exact exists_next_evMain h
  all_goals exact absurd h Bool.false_ne_true

/-! ### The free choice (log entry 4) -/

theorem eventEnabled_withChoices (i : Instr) (s : State) (n : Nat) :
    eventEnabled i { s with choices := n } = eventEnabled i s := by
  cases i <;> rfl

theorem mem_allEvents {i : Instr} (h : i ∈ allEvents) : i.isEvent = true ∧ i.wellFormed = true := by
  have hall : ∀ j ∈ allEvents, j.isEvent = true ∧ j.wellFormed = true := by decide
  exact hall i h

/-- The environment's events are enabled until a refusal, so there is an event to choose. -/
theorem exists_freeEvent {s : State} (hr : s.refused = none) : ∃ i, freeEvent s = some i := by
  have hbutton : .evButton false ∈ enabledEvents s :=
    List.mem_filter.2 ⟨by decide, (live_iff s).2 hr⟩
  exact ⟨_, List.getElem?_eq_getElem (Nat.mod_lt _ (List.length_pos_of_mem hbutton))⟩

theorem step_free {s : State} {i : Instr} (ht : s.trace = []) (hi : freeEvent s = some i) :
    step s = exec i { s with choices := s.choices + 1 } := by
  simp [step, fetch, ht, hi]

/-- Settles O47: the chosen event is one of the enabled ones, and using up a choice does not disable
it. -/
theorem freeStepRunsAnEnabledAgent : Obligations.FreeStepRunsAnEnabledAgent := by
  intro s ht hr
  obtain ⟨i, hi⟩ := exists_freeEvent hr
  obtain ⟨hall, hen⟩ := List.mem_filter.1 (List.mem_of_getElem? hi)
  obtain ⟨hev, hwf⟩ := mem_allEvents hall
  obtain ⟨s', he⟩ := exists_next_of_eventEnabled
    ((eventEnabled_withChoices i s (s.choices + 1)).trans hen)
  exact ⟨i, s', hev, hwf, he, (step_free ht hi).trans he⟩

end Sys2Proof.Machine
end

section
/-! SUPPORT. What no instruction writes, the output events it emits, and the levels they drive. -/

namespace Sys2Proof.Machine

/-! ### The parameters, the program and the outputs after an instruction -/

/-- The parameters, the program and the model's own fields are as before, and the output log and the
levels are what emitting os leaves. -/
structure EmitsOnly (os : List OutEvent) (s s' : State) : Prop where
  params : s'.params = s.params
  mainProgram : s'.mainProgram = s.mainProgram
  trace : s'.trace = s.trace
  choices : s'.choices = s.choices
  out : s'.out = (emitAll os s).out
  motor : s'.motor = (emitAll os s).motor
  leds : s'.leds = (emitAll os s).leds

theorem CommandEffect.emitsOnly {s s' : State} (h : CommandEffect s s') : EmitsOnly [] s s' :=
  ⟨h.frame.params, h.frame.mainProgram, h.frame.trace, h.frame.choices, h.frame.out, h.frame.motor,
    h.frame.leds⟩

theorem tick_emitsOnly (t : TimerId) (s : State) : EmitsOnly [] s (tick t s) := by
  obtain ⟨ts, r, e⟩ := tick_frame t s
  rw [e]
  exact ⟨rfl, rfl, rfl, rfl, rfl, rfl, rfl⟩

theorem dispatch_emitsOnly (src : IrqSource) (s : State) : EmitsOnly [] s (dispatch src s) := by
  obtain ⟨ts, ls, pwm, delay, rs, r, e⟩ := dispatch_frame src s
  rw [e]
  exact ⟨rfl, rfl, rfl, rfl, rfl, rfl, rfl⟩

theorem emitAll_emitsOnly (os : List OutEvent) (s : State) : EmitsOnly os s (emitAll os s) := by
  obtain ⟨m, ls, e⟩ := emitAll_eq os s
  constructor <;> rw [e]

theorem MicroEffect.emitsOnly {s s' : State} (h : MicroEffect s s') : ∃ os, EmitsOnly os s s' := by
  cases h with
  | command s1 l hc => exact ⟨[], { hc.emitsOnly with }⟩
  | plain os => exact ⟨os, { emitAll_emitsOnly os s with }⟩

theorem exec_emitsOnly {i : Instr} {s s' : State} (h : exec i s = .next s') :
    ∃ os, EmitsOnly os s s' := by
  cases exec_effect h with
  | command _ _ _ hc => exact ⟨[], hc.emitsOnly⟩
  | tick t => exact ⟨[], tick_emitsOnly t s⟩
  | edge => exact ⟨[], rfl, rfl, rfl, rfl, rfl, rfl, rfl⟩
  | dispatch src => exact ⟨[], dispatch_emitsOnly src s⟩
  | button => exact ⟨[], rfl, rfl, rfl, rfl, rfl, rfl, rfl⟩
  | micro => exact (microStep_effect s).emitsOnly
  | program _ _ _ _ _ hc => exact ⟨[], { hc.emitsOnly with }⟩
  | badWord => exact ⟨[], rfl, rfl, rfl, rfl, rfl, rfl, rfl⟩

/-! ### The parameters after reset (00_scope.md R8; log entries 2 and 3) -/

/-- Every firmware clock is valid for T0 and T1, whatever the OPEN constant is. -/
theorem clockValid_firmwareClock (e : Bool) {t : TimerId} (ht : t ≠ .t2) (c : FirmwareClock) :
    clockValid e t c.clock = true := by
  refine (clockValid_iff e t c.clock).2 ⟨fun h => ?_, fun _ h => absurd h ht⟩
  cases c <;> simp [FirmwareClock.clock] at h

theorem firmwareClock_ne_off (c : FirmwareClock) : c.clock ≠ .off := by
  cases c <;> decide

theorem edgeValid_firmwareEdge (e : FirmwareEdge) : edgeValid .l0 e.edge = true :=
  (edgeValid_iff .l0 e.edge).2 fun h => by cases h

theorem paramsValid_reset : paramsValid State.reset.params = true := by
  simp [paramsValid, State.reset, Config.params, clockValid_firmwareClock, firmwareClock_ne_off,
    edgeValid_firmwareEdge]

/-- Settles O50: the members of the OPEN constants' types are values R8 allows, and neither exec nor the
fetch writes the parameters or the program. -/
theorem programAndParametersNeverChange : Obligations.ProgramAndParametersNeverChange := by
  refine ⟨⟨rfl, rfl, rfl, paramsValid_reset⟩, fun i s s' h => ?_, fun s s' h => ?_⟩
  · obtain ⟨os, he⟩ := exec_emitsOnly h
    exact ⟨he.params, he.mainProgram, he.trace, he.choices⟩
  · obtain ⟨i, tr, n, -, hx⟩ := step_next h
    obtain ⟨os, he⟩ := exec_emitsOnly hx
    exact ⟨he.params, he.mainProgram⟩

/-! ### The levels are what the output log drove last (10_state.md R52; log entry 10) -/

theorem motorAfter_lastMotor {os : List OutEvent} {m : Motor} (o : OutEvent)
    (hi : ∀ m', lastMotor os = some m' → m = m') (m' : Motor)
    (h : lastMotor (os ++ [o]) = some m') : motorAfter o m = m' := by
  rw [lastMotor, List.foldl_append] at h
  cases o with
  | led j w => exact hi m' h
  | carForward | carRotate | carStop => exact Option.some.inj h

theorem ledsAfter_lastLed {os : List OutEvent} {ls : Leds} (o : OutEvent)
    (hi : ∀ i v, lastLed i os = some v → ls.get i = v) (i : Maneuver) (v : Bool)
    (h : lastLed i (os ++ [o]) = some v) : (ledsAfter o ls).get i = v := by
  rw [lastLed, List.foldl_append] at h
  cases o with
  | led j w =>
    by_cases hj : j = i
    · subst hj
      have hw : w = v := by simpa using h
      exact (Leds.get_set_same ls j w).trans hw
    · have hold : lastLed i os = some v := (if_neg hj).symm.trans h
      exact (Leds.get_set_other ls j i w (Ne.symm hj)).trans (hi i v hold)
  | carForward | carRotate | carStop => exact hi i v h

theorem emit_levelsMatchOut (o : OutEvent) {s : State} (hi : levelsMatchOut s) :
    levelsMatchOut (emit o s) :=
  ⟨motorAfter_lastMotor o hi.1, ledsAfter_lastLed o hi.2⟩

theorem emitAll_levelsMatchOut (os : List OutEvent) {s : State} (hi : levelsMatchOut s) :
    levelsMatchOut (emitAll os s) := by
  induction os generalizing s with
  | nil => exact hi
  | cons o os ih => exact ih (emit_levelsMatchOut o hi)

theorem EmitsOnly.levelsMatchOut {os : List OutEvent} {s s' : State} (h : EmitsOnly os s s')
    (hi : levelsMatchOut s) : levelsMatchOut s' := by
  unfold Machine.levelsMatchOut
  rw [h.out, h.motor, h.leds]
  exact emitAll_levelsMatchOut os hi

/-- Settles O57: the fetch leaves the log and the levels, and an instruction emits some events, each of
which drives its level as it is logged. -/
theorem stepKeepsLevelsMatchOut : Obligations.StepKeepsLevelsMatchOut := by
  intro s s' hi h
  obtain ⟨i, tr, n, -, hx⟩ := step_next h
  obtain ⟨os, he⟩ := exec_emitsOnly hx
  exact he.levelsMatchOut (s := { s with trace := tr, choices := n }) hi

/-! ### The invariants after reset (70_reset_and_hazards.md R340 to R342) -/

theorem reset_timer (t : TimerId) : State.reset.timer t = TimerRegs.reset := by
  cases t <;> rfl

theorem countsFit_reset : countsFit State.reset := by
  intro t
  rw [reset_timer]
  exact ⟨Nat.two_pow_pos _, Nat.two_pow_pos _⟩

theorem clocksValid_reset : clocksValid State.reset := by
  intro t
  rw [reset_timer, clockValid_iff]
  simp [clockAccepted, TimerRegs.reset]

theorem enablesMatchMode_reset : enablesMatchMode State.reset := by
  intro t
  rw [reset_timer]
  exact ⟨fun _ => rfl, fun h => absurd h Bool.false_ne_true⟩

theorem runningImpliesEnabled_reset : runningImpliesEnabled State.reset := by
  intro t h
  rw [running, reset_timer] at h
  exact absurd h (by decide)

theorem levelsMatchOut_reset : levelsMatchOut State.reset :=
  ⟨fun _ => nofun, fun _ _ => nofun⟩

/-- Settles O58: the timers are stopped with every register 0, the label asks nothing of the locals, and
the output log is empty. -/
theorem resetMeetsTheInvariants : Obligations.ResetMeetsTheInvariants :=
  ⟨countsFit_reset, clocksValid_reset, enablesMatchMode_reset, runningImpliesEnabled_reset, trivial,
    levelsMatchOut_reset⟩

end Sys2Proof.Machine
end
